-- ==== Sys2Proof/Word.lean ====
section
/-! DEFINITION. Words and the plainest arithmetic of the BX9612 (R2 to R5 of spec/00_scope.md). -/

namespace Sys2Proof

/-- A word is 18 bits (R2). -/
abbrev Word := BitVec 18

/-- A dword is 36 bits (R2). -/
abbrev Dword := BitVec 36

/-- Bits [hi:lo] of a number, both included (R3). -/
def bitsOf (v hi lo : Nat) : Nat := (v >>> lo) % 2 ^ (hi - lo + 1)

/-- One bit of a number. -/
def bitOf (v i : Nat) : Bool := v.testBit i

/-- A Bool as a bit value. -/
def b2n (b : Bool) : Nat := if b then 1 else 0

/-- A word from a number, modulo 2^18. -/
def wordOf (v : Nat) : Word := BitVec.ofNat 18 v

/-- A dword of a low and a high word (R4). -/
def dwordOf (lo hi : Word) : Dword := hi ++ lo

/-- The low word of a dword (R4). -/
def Dword.lo (d : Dword) : Word := d.extractLsb' 0 18

/-- The high word of a dword (R4). -/
def Dword.hi (d : Dword) : Word := d.extractLsb' 18 18

/-- A number as `n` words, least significant word first (R5). -/
def wordsOf : Nat → Nat → List Word
  | 0, _ => []
  | n + 1, v => wordOf v :: wordsOf n (v >>> 18)

/-- The number that words spell, least significant word first (R5). -/
def natOf : List Word → Nat
  | [] => 0
  | w :: ws => w.toNat + 2 ^ 18 * natOf ws

end Sys2Proof
end

