-- ==== Sys2Proof/Syntax.lean ====
section
/-! DEFINITION. The commands of the block: one constructor of `Instr` for each row of spec/opcode_table.json,
with the operands the spec's text gives the row (spec/95_what_each_step_holds.md says what each step holds). -/

namespace Sys2Proof

abbrev PortId := Fin 96
abbrev CellId := Fin 108
abbrev BlockId := Fin 12
abbrev BufId := Fin 128
abbrev HostAddr := BitVec 20

/-- Where a command packet comes from (Table 14-12, SRC). -/
inductive Source | host | stream
  deriving DecidableEq, Repr

/-- A command packet (Table 14-1) but for its opcode, which the constructor names.
LEN is the number of argument words. -/
structure Packet where
  quiet : Bool
  fence : Bool
  track : Bool
  seq : BitVec 12
  src : Source
  args : List Word
  deriving DecidableEq, Repr

/-- Which part of a store, fetch, transfer or push a step makes: its claim or the words before the last, its record and
close or the last word, or all of it (R191, R203, R204, R222). -/
inductive Part | whole | claim | close
  deriving DecidableEq, Repr

/-- The four tick phases (Table 2-1), with the codes of TK_STATUS.PHASE. -/
inductive TickPhase | capture | map | emit | house
  deriving DecidableEq, Repr

/-- A tick word as received (Table 2-9): the clk from the TICK_IN edge to the first rising edge of SYNC, whether its SYNC
bits matched, its fields and its CHK. -/
structure TickWord where
  gap : BitVec 12
  syncOk : Bool
  tickNo : BitVec 36
  btime : BitVec 54
  period : BitVec 22
  flags : BitVec 4
  chk : BitVec 8
  deriving DecidableEq, Repr

/-- The edge that a tick mark of the partner gives, in device time, and the tether's delay as its echo has measured it in
this tick (R373). -/
structure TetherEdge where
  clk : BitVec 54
  delay : BitVec 12
  deriving DecidableEq, Repr

/-- A unit that a test or a spare replaces (Table 14-6, KIND). -/
inductive UnitRef
  | cell (c : CellId)
  | engine (e : Fin 9)
  | lane (l : Fin 3)
  deriving DecidableEq, Repr

/-- The RAMs of the device (Tables 13-5 and 13-6). -/
inductive RamId
  | block (b : BlockId)
  | captured | emit | knot | scale | queue | patch
  deriving DecidableEq, Repr

/-- What a reader of a RAM word finds (R22, R359, R360). -/
inductive EccFinding | clean | corrected | uncorrectable
  deriving DecidableEq, Repr

/-- A pop of a queue by the host, and what it finds of the word's check bits (R230). -/
structure QueuePop where
  queue : BitVec 10
  found : EccFinding
  deriving DecidableEq, Repr

/-- A cell that loses arbitration: the device time of the clk that samples the SOF edge of the winning frame, and the
bits of that frame as far as ORG, or to the first error before. -/
structure LostArbitration where
  cell : CellId
  edge : BitVec 54
  head : List Bool
  deriving DecidableEq, Repr

/-- What a cell has sampled when it detects an error: the bits through the one of the error, from the start of its flag
where the cell sends one. `noDom`: no dominant bit is sampled while the passive flag for an ACK error is sent (Table 6-1,
row 5). -/
structure HeardError where
  bits : List Bool
  noDom : Bool
  deriving DecidableEq, Repr

/-- A cell that sends, and what it has sampled of its frame through the last bit of EOF. -/
structure SentBits where
  cell : CellId
  bits : List Bool
  deriving DecidableEq, Repr

/-- A push of a cell's due record, or a part of it (R222). -/
structure RecordPush where
  cell : CellId
  part : Part
  deriving DecidableEq, Repr

/-- The levels of a port's RXD (`true`: recessive) since the last step of its bus pattern detector, each with its length
in clk. -/
structure HeardLevels where
  port : PortId
  levels : List (Bool × BitVec 32)
  deriving DecidableEq, Repr

/-- What fails in a cell: its local RAM, or its checker; and whether the status mirror word of its error counters is
uncorrectable (R351). -/
structure CellFailure where
  localRam : Bool
  counts : Bool
  deriving DecidableEq, Repr

/-- A failing tether lane, and the code and disparity errors found on the lanes since the last such step. -/
structure LaneErrors where
  lane : Fin 3
  errors : BitVec 9
  deriving DecidableEq, Repr

/-- A tether frame that the link layer sends again, and the code and disparity errors found on the lanes since the last row
that tells of such. -/
structure Resend where
  frame : BitVec 16
  errors : BitVec 9
  deriving DecidableEq, Repr

/-- A background requester that can hold a lease (R364, SP_LEASE). -/
inductive LeaseUnit | scrub | wear | telem | aging
  deriving DecidableEq, Repr

/-- One item of the tethered stream (Table 13-7, class stream). -/
inductive StreamItem
  | hostWrite (addr : HostAddr) (data : Dword) (tick : BitVec 36)
  | command (opcode : BitVec 8) (p : Packet) (tick : BitVec 36)
  | remoteResult (opcode : BitVec 8) (seq : BitVec 12) (status : BitVec 6) (results : List Word)
  deriving DecidableEq, Repr

/-- A change of an in-flight ledger entry as the health traffic reports it: SEQ, STATE, step k, n or STATUS, and whether the
tether stream carries the command (Table 13-8). -/
structure LedgerReport where
  seq : BitVec 12
  state : BitVec 2
  k : BitVec 6
  rest : BitVec 6
  carried : Bool
  deriving DecidableEq, Repr

/-- What health traffic reports (Table 13-7, class health): `wants`: the sender waits for a resynchronization to start;
`again`: one has not reached its matching digests and starts again (R378). -/
structure Health where
  elig : Bool
  cause : BitVec 4
  listClose : Bool
  ports : List (PortId × BitVec 3)
  rsReq : Bool
  switchReq : Bool
  ledger : List LedgerReport
  overflow : Bool
  wants : Bool := false
  again : Bool := false
  deriving DecidableEq, Repr

/-- The commands of the block, one constructor for each row of spec/opcode_table.json. -/
inductive Instr
  -- command packets executed by the command engine (R400)
  | nop (p : Packet) | ident (p : Packet)
  | portConfig (p : Packet) | portMode (p : Packet) | portTiming (p : Packet)
  | portAutorate (p : Packet) | portAutorateStop (p : Packet) | portRecover (p : Packet)
  | filterSet (p : Packet) | bufferSet (p : Packet) | bufferRelease (p : Packet)
  | queueConfig (p : Packet) | queueCredit (p : Packet) | queueDrop (p : Packet)
  | knotWrite (p : Packet) | knotListSet (p : Packet) | scaleWrite (p : Packet)
  | profileBind (p : Packet) | profilePolicy (p : Packet) | spliceSet (p : Packet)
  | remoteRead (p : Packet) | remoteWrite (p : Packet) | remoteLock (p : Packet) | remoteUnlock (p : Packet)
  | netSleep (p : Packet) | netWake (p : Packet) | wakeFilter (p : Packet) | portPower (p : Packet)
  | tickConfig (p : Packet) | commit (p : Packet) | abandon (p : Packet)
  | spareTake (p : Packet) | spareReturn (p : Packet) | wearRecord (p : Packet)
  | tetherConfig (p : Packet) | switchover (p : Packet)
  | ledgerQuery (p : Packet) | journalRead (p : Packet) | telemetryRead (p : Packet)
  | patchLoad (p : Packet) | selftest (p : Packet)
  | badOpcode (opcode : BitVec 8) (p : Packet)
  | commandWaitTimeout | handoffReply | rewoundCommandReply
  -- host port (chapter 15)
  | registerWrite (addr : HostAddr) (data : Dword)
  | rcRead (addr : HostAddr)
  | timeLoRead
  | sysFaultClear
  | reacq
  | errctrlRelease (c : CellId)
  | retry (c : CellId)
  | rsreq
  | qdataPop (q : QueuePop)
  | qdataPush (q : BitVec 10) (data : Dword)
  | qpush2 (q : BitVec 10) (data : Dword)
  | flush (n : Fin 4)
  | statusPairHold (p : PortId) (d : BufId) (hold : Bool)
  | s1Release (p : PortId) (d : BufId) (hold : Bool)
  | pwHoldWrite (p : PortId) (hold : Bool)
  | emitWindowWrite (i : BitVec 15) (data : Dword)
  | knotWindowWrite (i : BitVec 17) (data : Dword)
  | blockRamWrite (b : BlockId) (i : BitVec 14) (data : Dword)
  | parityErrorWrite (addr : HostAddr) (data : Dword)
  | discardedAccess (addr : HostAddr) (read : Bool) (data : Dword)
  | uncorrectableRead (addr : HostAddr) (words : BitVec 2)
  -- power, clocks, reset (chapter 17)
  | powerOnReset | brownout | pinReset | clockFaultReset | thermalReset
  | resetRelease (senior portStart : Bool) (bootsel : BitVec 2)
  | mainPllLockTimeout
  | ready (lockUs : BitVec 15) (failing : List (RamId × Nat))
  -- tick unit (chapter 2)
  | tickBoundary
  | phaseDeadline (ph : TickPhase) (portB : List (PortId × BufId))
  | captureTransfer (p : PortId) (d : BufId)
  | profileAreaWrite (n : Fin 2048)
  | captureComplete
  /-- `differs`: the spare engine shadows the lane and its result differs (R357) -/
  | knotIssue (lane : Fin 8) (differs : Bool)
  | mapComplete
  | emitTransfer (p : PortId) (d : BufId) (part : Part)
  | emitComplete
  | releaseTime (p : PortId) (d : BufId)
  | tickWordReceived (edge : BitVec 54) (w : TickWord)
  | tetherTickMark (edge : TetherEdge) (btime : BitVec 54) (tickNo : BitVec 36) (period : BitVec 22)
  | referenceMissing
  | holdoverFallback
  -- the bus (chapters 3 to 7)
  | frameStart (c : CellId) (tdc : Option (BitVec 8))
  -- a list of bits holds what the cell samples on its bus, stuff bits included, from SOF on (`true`: recessive);
  -- `head`: the bits of the frame on the bus as far as ORG, or to the first error before
  | frameSofReceived (c : CellId) (head : List Bool)
  | arbitrationLost (c : LostArbitration)
  | errorDetected (c : CellId) (e : HeardError)
  | protocolException (c : CellId) (bits : List Bool)
  /-- `last`: the last bit of EOF, which comes after `bits` -/
  | frameValidReceiver (c : CellId) (bits : List Bool) (last : Bool)
  | frameValidTransmitter (c : SentBits)
  | integrationComplete (c : CellId)
  | recoverySequence (c : CellId)
  | recoveryDelayElapsed (c : CellId)
  | frameBoundary (p : PortId)
  | beaconReady (c : CellId)
  | beaconMissing (c : CellId)
  | windowClose (c : CellId)
  | receiveStore (c : CellId) (part : Part)
  | receiveQueuePush (c : RecordPush)
  | transmitFetch (c : CellId) (part : Part)
  | rateMeasureDone (c : CellId) (tmin : BitVec 16)
  | rateDwellExpiry (c : CellId)
  | eventRecordPush
  | eventsLost
  -- field profiles (chapter 10)
  | reportEvaluation (n : Fin 2048)
  | hartRequest
  | hartReply (n : Fin 2048)
  | hartTimeout (n : Fin 2048)
  -- splice bridge (chapter 11)
  | serviceFrameDispatch (p : PortId)
  | outboundRelease (p : PortId) (inbound : Bool)
  | transactionTimeout (e : Fin 64)
  | quarantineEnd (e : Fin 64)
  | prefetchAgeDrop (w : Fin 16)
  | pollDue (w : Fin 16)
  | leaseExpiry (p : PortId)
  | hostAnswer
  | inboundExpiry (i : Fin 16)
  -- sleep and wake (chapter 12)
  | voteWindowClose (p : PortId)
  | sleepEntry (p : PortId)
  | wakeLine (p : PortId)
  | busPatternWake (p : HeardLevels)
  | umbraFrame (p : PortId) (bits : List Bool)
  | tickWake (p : PortId)
  | timerWake (p : PortId)
  | partnerWake (p : PortId)
  | wakePulseEnd (p : PortId)
  | lmdlyExpiry (p : PortId)
  | blockPowerOff (b : BlockId)
  | blockPowerUpComplete (b : BlockId)
  -- redundancy, spares and wear (chapter 13)
  | cellFault (c : CellId) (failure : CellFailure) (busIdle : Bool)
  | heartbeatSample (b : BlockId) (toggled : BitVec 9) (busIdle : BitVec 9)
  | takeoverLoadDone (b : BlockId)
  /-- `last`: the last bit of EOF, which comes after `bits` -/
  | mirrorFrameValid (b : BlockId) (bits : List Bool) (last : Bool) (stamp : BitVec 36)
  | engineCheckerError (e : Fin 9)
  | selftestComplete (u : UnitRef) (pass : Bool)
  | scrubAccess (ram : RamId) (addr : BitVec 18) (found : EccFinding)
  | rowCopyDone (ram : RamId) (row : BitVec 12)
  | agingMeasurement (b : BlockId) (codes : BitVec 36)
  | leaseGrant (u : LeaseUnit)
  | tetherFrameResend (r : Resend)
  | tetherLaneFailure (l : LaneErrors)
  | tetherPllLoss
  | tetherLinkUp (partnerSenior partnerRan : Bool) (delay : BitVec 12)
  | configurationTransferDone (regs stage : List (Nat × Nat)) (knots scale : List (Nat × Word))
  | streamItem (i : StreamItem)
  | healthTraffic (h : Health)
  | digestReceived (digest : BitVec 24) (void : Bool)
  | digestMissing
  | resyncStart
  | snapshotComplete
  | resyncTimeout
  | healthLoss
  -- telemetry (chapter 17)
  | temperatureSample (t0 t1 t2 t3 : BitVec 12)
  | voltageSample (vcore vsd vaux : BitVec 12)
  | telemetryPacket
  -- test access port (chapter 18)
  | tapBypass | tapSamplePreload | tapExtest | tapIdcode
  -- rows at the end of the table
  | tickWordMissing
  | listenModeResync (c : CellId)
  | busPatternWindowExpiry (p : PortId)
  | tetherPllRelock
  | otpProgrammingDone
  | snapshotWrite (i : BitVec 15) (data : Dword)
  | tapReset
  deriving DecidableEq, Repr

end Sys2Proof
end

