-- ==== Sys2Proof/Config.lean ====
section
/-! DEFINITION. What an implementation fixes, the free values the spec leaves open, and the sizes of the device. -/

namespace Sys2Proof

/-- Mask ROM version, "per stepping" (Table 16-3d): the spec gives no value. -/
opaque Config.romVersion : Nat

/-- Die serial number [35:0] and [71:36], "per die" (Table 16-3e): the spec gives no value.
R451 states only that SYS_SERIAL0 is never 0 after READY; see `serialLo`. -/
opaque Config.serialLow : Nat
opaque Config.serialHigh : Nat

/-- Codes of SAMPLE/PRELOAD (0), EXTEST (1) and IDCODE (2) in the instruction register of the test access port (R467): the
spec gives none (log entry 118). -/
opaque Config.tapCode : Nat → BitVec 4

/-- Values that the spec leaves open at an instant, one for each count of `State.free` (log entry 4). -/
opaque Config.freeValue : Nat → Nat

namespace Config

/-- SYS_SERIAL0 after READY is never 0 (R451). -/
def serialLo : Nat := if serialLow % 2 ^ 36 = 0 then 1 else serialLow % 2 ^ 36
def serialHi : Nat := serialHigh % 2 ^ 36

/-- The stepping modelled is B0, code 0x10 (Table 16-4, R1). -/
def stepping : Nat := 0x10

/-- The device code (Table 16-3c). -/
def deviceCode : Nat := 0x09612

/-- The idle item of a queue (R226). -/
def idleItem : Nat := 0x3FFFF

end Config

end Sys2Proof
end

