-- ==== Sys2Proof/Machine/Sparse.lean ====
section
/-! DEFINITION. Sparse tables: plain lists of keys and values in one canonical form, keys strictly rising and no entry
equal to what an unlisted key reads as. Every RAM and every table of the device is one of these. -/

namespace Sys2Proof.Machine

/-- A table by key, as plain data. -/
abbrev Sparse (α : Type) := List (Nat × α)

/-- The value at key `k`; an unlisted key reads as `d`. -/
def Sparse.get (d : α) : Sparse α → Nat → α
  | [], _ => d
  | (k', v) :: t, k => if k' = k then v else Sparse.get d t k

/-- The entry listed at key `k`, if any. -/
def Sparse.find : Sparse α → Nat → Option α
  | [], _ => none
  | (k', v) :: t, k => if k' = k then some v else Sparse.find t k

/-- Removes key `k`. -/
def Sparse.del : Sparse α → Nat → Sparse α
  | [], _ => []
  | (k', v) :: t, k => if k' = k then Sparse.del t k else (k', v) :: Sparse.del t k

/-- Lists `v` at key `k`, keeping the keys rising. -/
def Sparse.ins : Sparse α → Nat → α → Sparse α
  | [], k, v => [(k, v)]
  | (k', v') :: t, k, v =>
    if k < k' then (k, v) :: (k', v') :: t
    else if k' = k then (k, v) :: t
    else (k', v') :: Sparse.ins t k v

/-- Writes `v` at key `k`: writing the value an unlisted key reads as removes the entry. -/
def Sparse.put [DecidableEq α] (d : α) (m : Sparse α) (k : Nat) (v : α) : Sparse α :=
  if v = d then Sparse.del m k else Sparse.ins m k v

/-- Changes the value at one key. -/
def Sparse.modify [DecidableEq α] (d : α) (m : Sparse α) (k : Nat) (f : α → α) : Sparse α :=
  Sparse.put d m k (f (Sparse.get d m k))

/-- Merges a table of new values over an old one. -/
def Sparse.merge (m : Sparse α) : Sparse α → Sparse α
  | [] => m
  | (k, v) :: t => Sparse.merge (Sparse.ins m k v) t

/-- Keys strictly rise. -/
def Sparse.sorted : Sparse α → Bool
  | [] => true
  | [_] => true
  | (k, _) :: (k', v') :: t => decide (k < k') && Sparse.sorted ((k', v') :: t)

/-- The canonical form of a table that reads `d` where nothing is listed. -/
def Sparse.wf [DecidableEq α] (d : α) (m : Sparse α) : Bool :=
  Sparse.sorted m && m.all fun e => e.2 ≠ d

/-- The entries with keys from `lo` to `hi - 1`. -/
def Sparse.range (m : Sparse α) (lo hi : Nat) : Sparse α :=
  m.filter fun e => lo ≤ e.1 && e.1 < hi

end Sys2Proof.Machine
end

