-- ==== Sys2Proof/Machine/Regs.lean ====
section
/-! DEFINITION. Every register of Table 16-6 with its address, fields, access codes and reset values, field by field
from the register tables of the chapters, and the decoding of a dword address into its register (R435 to R440). -/

namespace Sys2Proof.Machine

/-- Access codes (Table 0-6). -/
inductive Access | r | rw | st | w1c | rc | wo | sc
  deriving DecidableEq, Repr

/-- A register field: its dword address, lowest bit, width, access code, reset value, and the values that no table
marks as reserved (R14). -/
structure Field where
  addr : Nat
  lo : Nat
  width : Nat
  acc : Access
  reset : Nat
  legal : Nat → Bool

/-- The key of a field in the register store. -/
def Field.key (f : Field) : Nat := f.addr * 64 + f.lo

/-- The number of values a field can hold. -/
def Field.size (f : Field) : Nat := 2 ^ f.width

/-- The capacity of a queue by its QID (Table 8-1). -/
def queueCap (q : Nat) : Nat :=
  if q < 0x200 then 512 else if q < 0x210 then 32768 else if q = 0x212 then 8192 else 2048

/-- The base address of a queue's eight registers by its QID (Table 8-9). -/
def queueBase (q : Nat) : Nat :=
  if q < 0x200 then 0x1E028 + (q / 36) * 0x100 + (q / 4 % 9) * 0x18 + (q % 4) * 8
  else if q < 0x210 then 0x3000 + (q % 16) * 8
  else 0x2000 + (q % 16) * 8


def F.BK_PINMUX.MLISTEN (b : Nat) : Field := ⟨0x1E000 + b * 0x100, 32, 4, .r, 0xF, fun _ => true⟩
def F.BK_PINMUX.SLOT7 (b : Nat) : Field := ⟨0x1E000 + b * 0x100, 28, 4, .r, 0x7, fun _ => true⟩
def F.BK_PINMUX.SLOT6 (b : Nat) : Field := ⟨0x1E000 + b * 0x100, 24, 4, .r, 0x6, fun _ => true⟩
def F.BK_PINMUX.SLOT5 (b : Nat) : Field := ⟨0x1E000 + b * 0x100, 20, 4, .r, 0x5, fun _ => true⟩
def F.BK_PINMUX.SLOT4 (b : Nat) : Field := ⟨0x1E000 + b * 0x100, 16, 4, .r, 0x4, fun _ => true⟩
def F.BK_PINMUX.SLOT3 (b : Nat) : Field := ⟨0x1E000 + b * 0x100, 12, 4, .r, 0x3, fun _ => true⟩
def F.BK_PINMUX.SLOT2 (b : Nat) : Field := ⟨0x1E000 + b * 0x100, 8, 4, .r, 0x2, fun _ => true⟩
def F.BK_PINMUX.SLOT1 (b : Nat) : Field := ⟨0x1E000 + b * 0x100, 4, 4, .r, 0x1, fun _ => true⟩
def F.BK_PINMUX.SLOT0 (b : Nat) : Field := ⟨0x1E000 + b * 0x100, 0, 4, .r, 0x0, fun _ => true⟩

def F.TK_CTRL.REACQ : Field := ⟨0x1000, 2, 1, .sc, 0, fun _ => true⟩
def F.TK_CTRL.STEP_EN : Field := ⟨0x1000, 1, 1, .st, 1, fun _ => true⟩
def F.TK_CTRL.OUT_EN : Field := ⟨0x1000, 0, 1, .st, 0, fun _ => true⟩

def F.TK_PERIOD.PERIOD : Field := ⟨0x1001, 0, 22, .st, 0xC350, fun v => 6250 ≤ v && v ≤ 3200000⟩

def F.TK_DL_CAPTURE.OFFSET : Field := ⟨0x1002, 0, 22, .st, 0xFA0, fun _ => true⟩

def F.TK_DL_MAP.OFFSET : Field := ⟨0x1003, 0, 22, .st, 0x88B8, fun _ => true⟩

def F.TK_DL_EMIT.OFFSET : Field := ⟨0x1004, 0, 22, .st, 0x9C40, fun _ => true⟩

def F.TK_REACT.CELL_EMIT : Field := ⟨0x1005, 16, 2, .st, 0x0, fun v => v == 0 || v == 3⟩
def F.TK_REACT.CELL_CAP : Field := ⟨0x1005, 14, 2, .st, 0x0, fun v => v == 0 || v == 3⟩
def F.TK_REACT.BLK_EMIT : Field := ⟨0x1005, 12, 2, .st, 0x3, fun _ => true⟩
def F.TK_REACT.BLK_CAP : Field := ⟨0x1005, 10, 2, .st, 0x3, fun _ => true⟩
def F.TK_REACT.RGN_EMIT : Field := ⟨0x1005, 8, 2, .st, 0x3, fun _ => true⟩
def F.TK_REACT.RGN_CAP : Field := ⟨0x1005, 6, 2, .st, 0x3, fun _ => true⟩
def F.TK_REACT.CHIP_EMIT : Field := ⟨0x1005, 4, 2, .st, 0x0, fun _ => true⟩
def F.TK_REACT.CHIP_MAP : Field := ⟨0x1005, 2, 2, .st, 0x1, fun _ => true⟩
def F.TK_REACT.CHIP_CAP : Field := ⟨0x1005, 0, 2, .st, 0x2, fun _ => true⟩

def F.TK_SRC.HOLD_EXP : Field := ⟨0x1006, 11, 4, .st, 0x4, fun _ => true⟩
def F.TK_SRC.PORT : Field := ⟨0x1006, 4, 7, .st, 0x00, fun v => v ≤ 95⟩
def F.TK_SRC.SRC2 : Field := ⟨0x1006, 2, 2, .st, 0x0, fun _ => true⟩
def F.TK_SRC.SRC : Field := ⟨0x1006, 0, 2, .st, 0x0, fun _ => true⟩

def F.TK_HOPDLY.LOCKLIM : Field := ⟨0x1007, 16, 12, .st, 0x028, fun _ => true⟩
def F.TK_HOPDLY.HOPDLY : Field := ⟨0x1007, 0, 16, .st, 0x0000, fun _ => true⟩

def F.TK_STATUS.FALLBACK : Field := ⟨0x1008, 10, 1, .r, 0, fun _ => true⟩
def F.TK_STATUS.PHASE : Field := ⟨0x1008, 8, 2, .r, 0x3, fun _ => true⟩
def F.TK_STATUS.SYSTIME : Field := ⟨0x1008, 6, 1, .r, 0, fun _ => true⟩
def F.TK_STATUS.SRCACT : Field := ⟨0x1008, 4, 2, .r, 0x0, fun _ => true⟩
def F.TK_STATUS.STATE : Field := ⟨0x1008, 0, 3, .r, 0x0, fun _ => true⟩

def F.TK_TICKNO.TICKNO : Field := ⟨0x1009, 0, 36, .r, 0, fun _ => true⟩

def F.TK_TIME_LO.TIME_LO : Field := ⟨0x100A, 0, 36, .r, 0, fun _ => true⟩

def F.TK_TIME_HI.TIME_HI : Field := ⟨0x100B, 0, 18, .r, 0, fun _ => true⟩

def F.TK_PHERR.RATE : Field := ⟨0x100C, 18, 18, .r, 0, fun _ => true⟩
def F.TK_PHERR.PHERR : Field := ⟨0x100C, 0, 18, .r, 0, fun _ => true⟩

def F.TK_MISS.HOUSE : Field := ⟨0x100D, 27, 9, .rc, 0, fun _ => true⟩
def F.TK_MISS.EMIT : Field := ⟨0x100D, 18, 9, .rc, 0, fun _ => true⟩
def F.TK_MISS.MAP : Field := ⟨0x100D, 9, 9, .rc, 0, fun _ => true⟩
def F.TK_MISS.CAPTURE : Field := ⟨0x100D, 0, 9, .rc, 0, fun _ => true⟩

def F.TK_DONE_CAPTURE.DONE : Field := ⟨0x100e, 0, 22, .r, 0, fun _ => true⟩

def F.TK_DONE_MAP.DONE : Field := ⟨0x100f, 0, 22, .r, 0, fun _ => true⟩

def F.TK_DONE_EMIT.DONE : Field := ⟨0x1010, 0, 22, .r, 0, fun _ => true⟩

def F.TK_WORDERR.DISCARD : Field := ⟨0x1011, 27, 9, .rc, 0, fun _ => true⟩
def F.TK_WORDERR.NUMADOPT : Field := ⟨0x1011, 18, 9, .rc, 0, fun _ => true⟩
def F.TK_WORDERR.MISSING : Field := ⟨0x1011, 9, 9, .rc, 0, fun _ => true⟩
def F.TK_WORDERR.CRCERR : Field := ⟨0x1011, 0, 9, .rc, 0, fun _ => true⟩

def F.BK_DLMISS.CELL_EMIT (b : Nat) : Field := ⟨0x1E001 + b * 0x100, 27, 9, .rc, 0, fun _ => true⟩
def F.BK_DLMISS.CELL_CAP (b : Nat) : Field := ⟨0x1E001 + b * 0x100, 18, 9, .rc, 0, fun _ => true⟩
def F.BK_DLMISS.BLK_EMIT (b : Nat) : Field := ⟨0x1E001 + b * 0x100, 9, 9, .rc, 0, fun _ => true⟩
def F.BK_DLMISS.BLK_CAP (b : Nat) : Field := ⟨0x1E001 + b * 0x100, 0, 9, .rc, 0, fun _ => true⟩

def F.RG_DLMISS.RGN_EMIT (g : Nat) : Field := ⟨0x1F000 + g * 0x100, 18, 18, .rc, 0, fun _ => true⟩
def F.RG_DLMISS.RGN_CAP (g : Nat) : Field := ⟨0x1F000 + g * 0x100, 0, 18, .rc, 0, fun _ => true⟩

def F.CL_NATIVE.GUARD (c : Nat) : Field := ⟨0x10010 + c * 0x200, 10, 8, .st, 0x08, fun _ => true⟩
def F.CL_NATIVE.ORIGIN (c : Nat) : Field := ⟨0x10010 + c * 0x200, 0, 10, .st, 0x3FF, fun _ => true⟩

def F.CL_BEACON.BCN_OFS (c : Nat) : Field := ⟨0x10011 + c * 0x200, 16, 16, .st, 0x0000, fun _ => true⟩
def F.CL_BEACON.BAND (c : Nat) : Field := ⟨0x10011 + c * 0x200, 9, 7, .st, 0x10, fun _ => true⟩
def F.CL_BEACON.WIN (c : Nat) : Field := ⟨0x10011 + c * 0x200, 2, 7, .st, 0x00, fun _ => true⟩
def F.CL_BEACON.CAND (c : Nat) : Field := ⟨0x10011 + c * 0x200, 0, 1, .st, 0, fun _ => true⟩

def F.CL_BCNSTAT.WIN (c : Nat) : Field := ⟨0x10012 + c * 0x200, 25, 7, .r, 0x00, fun _ => true⟩
def F.CL_BCNSTAT.BAND (c : Nat) : Field := ⟨0x10012 + c * 0x200, 18, 7, .r, 0x00, fun _ => true⟩
def F.CL_BCNSTAT.WINOPEN (c : Nat) : Field := ⟨0x10012 + c * 0x200, 11, 1, .r, 0, fun _ => true⟩
def F.CL_BCNSTAT.SELF (c : Nat) : Field := ⟨0x10012 + c * 0x200, 10, 1, .r, 0, fun _ => true⟩
def F.CL_BCNSTAT.MASTER (c : Nat) : Field := ⟨0x10012 + c * 0x200, 0, 10, .r, 0x3FF, fun _ => true⟩

def F.CL_NATCNT.DUPORG (c : Nat) : Field := ⟨0x10013 + c * 0x200, 27, 9, .rc, 0, fun _ => true⟩
def F.CL_NATCNT.BCNMISS (c : Nat) : Field := ⟨0x10013 + c * 0x200, 18, 9, .rc, 0, fun _ => true⟩
def F.CL_NATCNT.BCNDROP (c : Nat) : Field := ⟨0x10013 + c * 0x200, 9, 9, .rc, 0, fun _ => true⟩
def F.CL_NATCNT.BCNBAD (c : Nat) : Field := ⟨0x10013 + c * 0x200, 0, 9, .rc, 0, fun _ => true⟩

def F.CL_BANDLOG.COUNT (c : Nat) : Field := ⟨0x10014 + c * 0x200, 27, 9, .rc, 0, fun _ => true⟩
def F.CL_BANDLOG.PRI (c : Nat) : Field := ⟨0x10014 + c * 0x200, 16, 11, .r, 0x000, fun _ => true⟩
def F.CL_BANDLOG.ORG (c : Nat) : Field := ⟨0x10014 + c * 0x200, 0, 10, .r, 0x3FF, fun _ => true⟩

def F.CL_COMPAT.PXHD (c : Nat) : Field := ⟨0x10018 + c * 0x200, 2, 1, .st, 0, fun _ => true⟩
def F.CL_COMPAT.BRSE (c : Nat) : Field := ⟨0x10018 + c * 0x200, 1, 1, .st, 0, fun _ => true⟩
def F.CL_COMPAT.FDOE (c : Nat) : Field := ⟨0x10018 + c * 0x200, 0, 1, .st, 0, fun _ => true⟩

def F.CL_COMPCNT.OVLD (c : Nat) : Field := ⟨0x10019 + c * 0x200, 9, 9, .rc, 0, fun _ => true⟩
def F.CL_COMPCNT.PEXC (c : Nat) : Field := ⟨0x10019 + c * 0x200, 0, 9, .rc, 0, fun _ => true⟩

def F.CL_NBT.BRP (c : Nat) : Field := ⟨0x10020 + c * 0x200, 22, 6, .st, 0x04, fun _ => true⟩
def F.CL_NBT.TSEG1 (c : Nat) : Field := ⟨0x10020 + c * 0x200, 14, 8, .st, 0x3E, fun _ => true⟩
def F.CL_NBT.TSEG2 (c : Nat) : Field := ⟨0x10020 + c * 0x200, 7, 7, .st, 0x0F, fun _ => true⟩
def F.CL_NBT.SJW (c : Nat) : Field := ⟨0x10020 + c * 0x200, 0, 7, .st, 0x0F, fun _ => true⟩

def F.CL_DBT.BRP_D (c : Nat) : Field := ⟨0x10021 + c * 0x200, 13, 5, .st, 0x04, fun _ => true⟩
def F.CL_DBT.TSEG1_D (c : Nat) : Field := ⟨0x10021 + c * 0x200, 8, 5, .st, 0x0E, fun _ => true⟩
def F.CL_DBT.TSEG2_D (c : Nat) : Field := ⟨0x10021 + c * 0x200, 4, 4, .st, 0x3, fun _ => true⟩
def F.CL_DBT.SJW_D (c : Nat) : Field := ⟨0x10021 + c * 0x200, 0, 4, .st, 0x3, fun _ => true⟩

def F.CL_TDC.TDCE (c : Nat) : Field := ⟨0x10022 + c * 0x200, 14, 1, .st, 1, fun _ => true⟩
def F.CL_TDC.TDCO (c : Nat) : Field := ⟨0x10022 + c * 0x200, 7, 7, .st, 0x50, fun _ => true⟩
def F.CL_TDC.TDCF (c : Nat) : Field := ⟨0x10022 + c * 0x200, 0, 7, .st, 0x04, fun _ => true⟩

def F.CL_TDCSTAT.RANGE (c : Nat) : Field := ⟨0x10023 + c * 0x200, 18, 9, .rc, 0, fun _ => true⟩
def F.CL_TDCSTAT.VALID (c : Nat) : Field := ⟨0x10023 + c * 0x200, 8, 1, .r, 0, fun _ => true⟩
def F.CL_TDCSTAT.CLAMP (c : Nat) : Field := ⟨0x10023 + c * 0x200, 7, 1, .r, 0, fun _ => true⟩
def F.CL_TDCSTAT.TDCV (c : Nat) : Field := ⟨0x10023 + c * 0x200, 0, 7, .r, 0x00, fun _ => true⟩

def F.CL_ARCTRL.DWELL (c : Nat) : Field := ⟨0x10024 + c * 0x200, 13, 8, .st, 0x10, fun v => v != 0⟩
def F.CL_ARCTRL.PASSES (c : Nat) : Field := ⟨0x10024 + c * 0x200, 9, 4, .st, 0x3, fun _ => true⟩
def F.CL_ARCTRL.NEEDED (c : Nat) : Field := ⟨0x10024 + c * 0x200, 5, 4, .st, 0x4, fun v => v != 0⟩
def F.CL_ARCTRL.GLITCH (c : Nat) : Field := ⟨0x10024 + c * 0x200, 0, 5, .st, 0x04, fun _ => true⟩

def F.CL_ARSTAT.TMIN (c : Nat) : Field := ⟨0x10025 + c * 0x200, 16, 16, .r, 0xFFFF, fun _ => true⟩
def F.CL_ARSTAT.GOOD (c : Nat) : Field := ⟨0x10025 + c * 0x200, 12, 4, .r, 0x0, fun _ => true⟩
def F.CL_ARSTAT.PASS (c : Nat) : Field := ⟨0x10025 + c * 0x200, 8, 4, .r, 0x0, fun _ => true⟩
def F.CL_ARSTAT.CAND (c : Nat) : Field := ⟨0x10025 + c * 0x200, 4, 4, .r, 0x0, fun _ => true⟩
def F.CL_ARSTAT.STATE (c : Nat) : Field := ⟨0x10025 + c * 0x200, 0, 3, .r, 0x0, fun _ => true⟩

def F.CL_ARCANDN.VALID (c k : Nat) : Field := ⟨0x10030 + c * 0x200 + 2 * k, 35, 1, .st, 0, fun _ => true⟩
def F.CL_ARCANDN.NBT (c k : Nat) : Field := ⟨0x10030 + c * 0x200 + 2 * k, 0, 28, .st, 17794959, fun _ => true⟩

def F.CL_ARCANDD.DBT (c k : Nat) : Field := ⟨0x10031 + c * 0x200 + 2 * k, 0, 18, .st, 36403, fun _ => true⟩

def F.CL_STATUS.LASTEV (c : Nat) : Field := ⟨0x10000 + c * 0x200, 28, 8, .r, 0x00, fun _ => true⟩
def F.CL_STATUS.SEQCNT (c : Nat) : Field := ⟨0x10000 + c * 0x200, 20, 8, .r, 0x00, fun _ => true⟩
def F.CL_STATUS.RECOV (c : Nat) : Field := ⟨0x10000 + c * 0x200, 17, 3, .r, 0x0, fun _ => true⟩
def F.CL_STATUS.SUSP (c : Nat) : Field := ⟨0x10000 + c * 0x200, 16, 1, .r, 0, fun _ => true⟩
def F.CL_STATUS.ALONE (c : Nat) : Field := ⟨0x10000 + c * 0x200, 15, 1, .r, 0, fun _ => true⟩
def F.CL_STATUS.EWARN (c : Nat) : Field := ⟨0x10000 + c * 0x200, 14, 1, .r, 0, fun _ => true⟩
def F.CL_STATUS.TXACT (c : Nat) : Field := ⟨0x10000 + c * 0x200, 13, 1, .r, 0, fun _ => true⟩
def F.CL_STATUS.RXACT (c : Nat) : Field := ⟨0x10000 + c * 0x200, 12, 1, .r, 0, fun _ => true⟩
def F.CL_STATUS.TEST (c : Nat) : Field := ⟨0x10000 + c * 0x200, 10, 2, .r, 0x0, fun _ => true⟩
def F.CL_STATUS.PROTO (c : Nat) : Field := ⟨0x10000 + c * 0x200, 9, 1, .r, 0, fun _ => true⟩
def F.CL_STATUS.CONF (c : Nat) : Field := ⟨0x10000 + c * 0x200, 0, 2, .r, 0x0, fun _ => true⟩

def F.CL_OPMODE.TEST (c : Nat) : Field := ⟨0x10001 + c * 0x200, 1, 2, .st, 0x0, fun _ => true⟩
def F.CL_OPMODE.PROTO (c : Nat) : Field := ⟨0x10001 + c * 0x200, 0, 1, .st, 0, fun _ => true⟩

def F.CL_ERRCTRL.DELAY (c : Nat) : Field := ⟨0x10002 + c * 0x200, 12, 8, .st, 0x04, fun v => v != 0⟩
def F.CL_ERRCTRL.RECMODE (c : Nat) : Field := ⟨0x10002 + c * 0x200, 10, 2, .st, 0x0, fun v => v != 3⟩
def F.CL_ERRCTRL.PACE (c : Nat) : Field := ⟨0x10002 + c * 0x200, 8, 2, .st, 0x1, fun v => v != 3⟩
def F.CL_ERRCTRL.RELEASE (c : Nat) : Field := ⟨0x10002 + c * 0x200, 7, 1, .sc, 0, fun _ => true⟩
def F.CL_ERRCTRL.RETRY (c : Nat) : Field := ⟨0x10002 + c * 0x200, 6, 1, .sc, 0, fun _ => true⟩

def F.CL_ECNT.TEC (c : Nat) : Field := ⟨0x10003 + c * 0x200, 8, 9, .r, 0x000, fun _ => true⟩
def F.CL_ECNT.REC (c : Nat) : Field := ⟨0x10003 + c * 0x200, 0, 8, .r, 0x00, fun _ => true⟩

def F.CL_ERRCAP.TYPE (c : Nat) : Field := ⟨0x10004 + c * 0x200, 32, 4, .r, 0x0, fun _ => true⟩
def F.CL_ERRCAP.ROLE (c : Nat) : Field := ⟨0x10004 + c * 0x200, 31, 1, .r, 0, fun _ => true⟩
def F.CL_ERRCAP.DPH (c : Nat) : Field := ⟨0x10004 + c * 0x200, 30, 1, .r, 0, fun _ => true⟩
def F.CL_ERRCAP.POS (c : Nat) : Field := ⟨0x10004 + c * 0x200, 20, 10, .r, 0x3FF, fun _ => true⟩
def F.CL_ERRCAP.FIELD (c : Nat) : Field := ⟨0x10004 + c * 0x200, 16, 4, .r, 0x0, fun _ => true⟩
def F.CL_ERRCAP.NEW (c : Nat) : Field := ⟨0x10004 + c * 0x200, 15, 1, .rc, 0, fun _ => true⟩

def F.CL_ERRCNTA.BIT (c : Nat) : Field := ⟨0x10005 + c * 0x200, 27, 9, .rc, 0, fun _ => true⟩
def F.CL_ERRCNTA.STUFF (c : Nat) : Field := ⟨0x10005 + c * 0x200, 18, 9, .rc, 0, fun _ => true⟩
def F.CL_ERRCNTA.FORM (c : Nat) : Field := ⟨0x10005 + c * 0x200, 9, 9, .rc, 0, fun _ => true⟩
def F.CL_ERRCNTA.CRC (c : Nat) : Field := ⟨0x10005 + c * 0x200, 0, 9, .rc, 0, fun _ => true⟩

def F.CL_ERRCNTB.ACK (c : Nat) : Field := ⟨0x10006 + c * 0x200, 27, 9, .rc, 0, fun _ => true⟩
def F.CL_ERRCNTB.DOMX (c : Nat) : Field := ⟨0x10006 + c * 0x200, 18, 9, .rc, 0, fun _ => true⟩
def F.CL_ERRCNTB.DATAPH (c : Nat) : Field := ⟨0x10006 + c * 0x200, 9, 9, .rc, 0, fun _ => true⟩
def F.CL_ERRCNTB.BUSOFF (c : Nat) : Field := ⟨0x10006 + c * 0x200, 0, 9, .rc, 0, fun _ => true⟩

def F.CL_SOLO.ENTRIES (c : Nat) : Field := ⟨0x10007 + c * 0x200, 9, 9, .rc, 0, fun _ => true⟩
def F.CL_SOLO.ACKRUN (c : Nat) : Field := ⟨0x10007 + c * 0x200, 0, 6, .r, 0x00, fun _ => true⟩

def F.CL_CLASHCTL.EN (c : Nat) : Field := ⟨0x10008 + c * 0x200, 26, 1, .st, 1, fun _ => true⟩
def F.CL_CLASHCTL.KMASK (c : Nat) : Field := ⟨0x10008 + c * 0x200, 22, 4, .st, 0x1, fun _ => true⟩
def F.CL_CLASHCTL.PRI_HI (c : Nat) : Field := ⟨0x10008 + c * 0x200, 11, 11, .st, 0x7FF, fun _ => true⟩
def F.CL_CLASHCTL.PRI_LO (c : Nat) : Field := ⟨0x10008 + c * 0x200, 0, 11, .st, 0x001, fun _ => true⟩

def F.CL_CLASHLOG0.COUNT (c : Nat) : Field := ⟨0x10009 + c * 0x200, 27, 9, .rc, 0, fun _ => true⟩
def F.CL_CLASHLOG0.OVF (c : Nat) : Field := ⟨0x10009 + c * 0x200, 18, 9, .rc, 0, fun _ => true⟩
def F.CL_CLASHLOG0.KIND (c : Nat) : Field := ⟨0x10009 + c * 0x200, 16, 2, .r, 0x0, fun _ => true⟩
def F.CL_CLASHLOG0.PRI (c : Nat) : Field := ⟨0x10009 + c * 0x200, 5, 11, .r, 0x000, fun _ => true⟩

def F.CL_CLASHLOG1.IDENT (c : Nat) : Field := ⟨0x1000A + c * 0x200, 0, 32, .r, 0, fun _ => true⟩

def F.CL_FILTCNT.NOMATCH (c : Nat) : Field := ⟨0x10050 + c * 0x200, 27, 9, .rc, 0, fun _ => true⟩
def F.CL_FILTCNT.DISCARD (c : Nat) : Field := ⟨0x10050 + c * 0x200, 18, 9, .rc, 0, fun _ => true⟩
def F.CL_FILTCNT.LOST (c : Nat) : Field := ⟨0x10050 + c * 0x200, 9, 9, .rc, 0, fun _ => true⟩
def F.CL_FILTCNT.QDROP (c : Nat) : Field := ⟨0x10050 + c * 0x200, 0, 9, .rc, 0, fun _ => true⟩

def F.CL_TXSTAT.WDCNT (c : Nat) : Field := ⟨0x10051 + c * 0x200, 27, 9, .rc, 0, fun _ => true⟩
def F.CL_TXSTAT.READY (c : Nat) : Field := ⟨0x10051 + c * 0x200, 20, 7, .r, 0x00, fun _ => true⟩
def F.CL_TXSTAT.READYV (c : Nat) : Field := ⟨0x10051 + c * 0x200, 19, 1, .r, 0, fun _ => true⟩
def F.CL_TXSTAT.ACTIVE (c : Nat) : Field := ⟨0x10051 + c * 0x200, 12, 7, .r, 0x00, fun _ => true⟩
def F.CL_TXSTAT.ACTV (c : Nat) : Field := ⟨0x10051 + c * 0x200, 11, 1, .r, 0, fun _ => true⟩
def F.CL_TXSTAT.PENDCNT (c : Nat) : Field := ⟨0x10051 + c * 0x200, 0, 8, .r, 0x00, fun _ => true⟩

def F.CL_TXPEND.PEND (c j : Nat) : Field := ⟨0x10052 + c * 0x200 + j, 0, 32, .r, 0, fun _ => true⟩

def F.QWM.HWM (q : Nat) : Field := ⟨queueBase q + 2, 16, 16, .st, queueCap q, fun v => v ≤ queueCap q⟩
def F.QWM.LWM (q : Nat) : Field := ⟨queueBase q + 2, 0, 16, .st, 0x0000, fun v => v ≤ queueCap q⟩

def F.QCFG.BIND (q : Nat) : Field := ⟨queueBase q + 3, 14, 3, .st, 0x0, fun v => v ≤ 5⟩
def F.QCFG.EN (q : Nat) : Field := ⟨queueBase q + 3, 13, 1, .st, 0, fun _ => true⟩
def F.QCFG.BASE (q : Nat) : Field := ⟨queueBase q + 3, 0, 13, .st, 0x0000, fun _ => true⟩

def F.QCTL.FLUSH (q : Nat) : Field := ⟨queueBase q + 4, 35, 1, .sc, 0, fun _ => true⟩
def F.QCTL.NIRQ (q : Nat) : Field := ⟨queueBase q + 4, 34, 1, .rw, 0, fun _ => true⟩
def F.QCTL.CEIL (q : Nat) : Field := ⟨queueBase q + 4, 0, 16, .r, queueCap q, fun _ => true⟩

def F.QSTAT.HI (q : Nat) : Field := ⟨queueBase q + 5, 35, 1, .r, 0, fun _ => true⟩
def F.QSTAT.LO (q : Nat) : Field := ⟨queueBase q + 5, 34, 1, .r, 1, fun _ => true⟩
def F.QSTAT.CREDIT (q : Nat) : Field := ⟨queueBase q + 5, 16, 16, .r, queueCap q, fun _ => true⟩
def F.QSTAT.VIS (q : Nat) : Field := ⟨queueBase q + 5, 0, 16, .r, 0x0000, fun _ => true⟩

def F.QMON.HNOT (q : Nat) : Field := ⟨queueBase q + 6, 35, 1, .w1c, 0, fun _ => true⟩
def F.QMON.LNOT (q : Nat) : Field := ⟨queueBase q + 6, 34, 1, .w1c, 0, fun _ => true⟩
def F.QMON.HCROSS (q : Nat) : Field := ⟨queueBase q + 6, 26, 8, .rc, 0x00, fun _ => true⟩
def F.QMON.LCROSS (q : Nat) : Field := ⟨queueBase q + 6, 18, 8, .rc, 0x00, fun _ => true⟩
def F.QMON.CORR (q : Nat) : Field := ⟨queueBase q + 6, 0, 16, .rc, 0x0000, fun _ => true⟩

def F.QCNT.CRV (q : Nat) : Field := ⟨queueBase q + 7, 27, 9, .rc, 0, fun _ => true⟩
def F.QCNT.BADPKT (q : Nat) : Field := ⟨queueBase q + 7, 18, 9, .rc, 0, fun _ => true⟩
def F.QCNT.PKTS (q : Nat) : Field := ⟨queueBase q + 7, 0, 14, .r, 0x0000, fun _ => true⟩

def F.GW_HWCTRL.WE : Field := ⟨0x800, 0, 2, .rw, 0x3, fun _ => true⟩

def F.GW_HWSTAT.DISC : Field := ⟨0x801, 27, 9, .rc, 0, fun _ => true⟩
def F.GW_HWSTAT.FILL : Field := ⟨0x801, 0, 7, .r, 0x00, fun _ => true⟩

def F.GW_MAPSTAT.LISTS : Field := ⟨0x802, 25, 11, .r, 0x000, fun _ => true⟩
def F.GW_MAPSTAT.TSCHED : Field := ⟨0x802, 0, 22, .r, 0, fun _ => true⟩

def F.GW_KNOTTOT.TOTAL : Field := ⟨0x803, 0, 26, .r, 0, fun _ => true⟩

def F.GW_ERR.INVALID : Field := ⟨0x804, 27, 9, .rc, 0, fun _ => true⟩
def F.GW_ERR.TRUNC : Field := ⟨0x804, 18, 9, .rc, 0, fun _ => true⟩

def F.GW_SATCNT.SAT : Field := ⟨0x805, 0, 36, .rc, 0, fun _ => true⟩

def F.GW_DIGEST.DIGEST : Field := ⟨0x806, 0, 24, .r, 0x000000, fun _ => true⟩

def F.GW_DIGTICK.TICKNO : Field := ⟨0x807, 0, 36, .r, 0, fun _ => true⟩

def F.GW_SWTICK.TICKNO : Field := ⟨0x808, 0, 36, .r, 0, fun _ => true⟩

def F.GW_LISTHEAD.STAGE (l : Nat) : Field := ⟨0xC00 + l, 33, 3, .st, 0x0, fun _ => true⟩
def F.GW_LISTHEAD.COUNT (l : Nat) : Field := ⟨0xC00 + l, 18, 15, .st, 0x0000, fun _ => true⟩
def F.GW_LISTHEAD.EN (l : Nat) : Field := ⟨0xC00 + l, 17, 1, .st, 0, fun _ => true⟩
def F.GW_LISTHEAD.HEAD (l : Nat) : Field := ⟨0xC00 + l, 0, 16, .st, 0x0000, fun _ => true⟩

def F.GW_PFSTAT.AREAW : Field := ⟨0x810, 12, 18, .r, 0, fun _ => true⟩
def F.GW_PFSTAT.BOUND : Field := ⟨0x810, 0, 12, .r, 0x000, fun _ => true⟩

def F.GW_PFCNT0.OUTDROP : Field := ⟨0x811, 27, 9, .rc, 0, fun _ => true⟩
def F.GW_PFCNT0.EDGEINV : Field := ⟨0x811, 18, 9, .rc, 0, fun _ => true⟩
def F.GW_PFCNT0.MALF : Field := ⟨0x811, 9, 9, .rc, 0, fun _ => true⟩
def F.GW_PFCNT0.MDREF : Field := ⟨0x811, 0, 9, .rc, 0, fun _ => true⟩

def F.GW_PFCNT1.HTMO : Field := ⟨0x812, 27, 9, .rc, 0, fun _ => true⟩
def F.GW_PFCNT1.HLATE : Field := ⟨0x812, 18, 9, .rc, 0, fun _ => true⟩
def F.GW_PFCNT1.HREJ : Field := ⟨0x812, 9, 9, .rc, 0, fun _ => true⟩

def F.SB_WCFG.EN (w : Nat) : Field := ⟨0x80000 + 8 * w, 27, 1, .st, 0, fun _ => true⟩
def F.SB_WCFG.NOSE (w : Nat) : Field := ⟨0x80000 + 8 * w, 26, 1, .st, 0, fun _ => true⟩
def F.SB_WCFG.LANE (w : Nat) : Field := ⟨0x80000 + 8 * w, 24, 2, .st, 0x0, fun v => v != 3⟩
def F.SB_WCFG.LOCKOK (w : Nat) : Field := ⟨0x80000 + 8 * w, 23, 1, .st, 0, fun _ => true⟩
def F.SB_WCFG.PFDEPTH (w : Nat) : Field := ⟨0x80000 + 8 * w, 17, 6, .st, 0x00, fun v => v ≤ 32⟩
def F.SB_WCFG.PORT (w : Nat) : Field := ⟨0x80000 + 8 * w, 10, 7, .st, 0x00, fun v => v ≤ 95⟩
def F.SB_WCFG.ORG (w : Nat) : Field := ⟨0x80000 + 8 * w, 0, 10, .st, 0x3FF, fun _ => true⟩

def F.SB_WBASE.BASE (w : Nat) : Field := ⟨0x80001 + 8 * w, 0, 24, .st, 0x000000, fun _ => true⟩

def F.SB_WRANGE.PRI (w : Nat) : Field := ⟨0x80002 + 8 * w, 25, 11, .st, 0x7FF, fun v => v != 0⟩
def F.SB_WRANGE.SIZE (w : Nat) : Field := ⟨0x80002 + 8 * w, 0, 25, .st, 0x0000001, fun _ => true⟩

def F.SB_WPOLL.PINT (w : Nat) : Field := ⟨0x80003 + 8 * w, 24, 8, .st, 0x00, fun _ => true⟩
def F.SB_WPOLL.POFS (w : Nat) : Field := ⟨0x80003 + 8 * w, 0, 24, .st, 0x000000, fun _ => true⟩

def F.SB_WSTAT.MISDECL (w : Nat) : Field := ⟨0x80004 + 8 * w, 13, 1, .r, 0, fun _ => true⟩
def F.SB_WSTAT.LOCKED (w : Nat) : Field := ⟨0x80004 + 8 * w, 12, 1, .r, 0, fun _ => true⟩
def F.SB_WSTAT.LEASE (w : Nat) : Field := ⟨0x80004 + 8 * w, 0, 12, .r, 0x000, fun _ => true⟩

def F.SB_WPF.INFL (w : Nat) : Field := ⟨0x80005 + 8 * w, 30, 1, .r, 0, fun _ => true⟩
def F.SB_WPF.PFCNT (w : Nat) : Field := ⟨0x80005 + 8 * w, 24, 6, .r, 0x00, fun _ => true⟩
def F.SB_WPF.PFBASE (w : Nat) : Field := ⟨0x80005 + 8 * w, 0, 24, .r, 0x000000, fun _ => true⟩

def F.SB_WPOLLV.VALID (w : Nat) : Field := ⟨0x80006 + 8 * w, 28, 1, .r, 0, fun _ => true⟩
def F.SB_WPOLLV.ERR (w : Nat) : Field := ⟨0x80006 + 8 * w, 27, 1, .r, 0, fun _ => true⟩
def F.SB_WPOLLV.TMO (w : Nat) : Field := ⟨0x80006 + 8 * w, 26, 1, .r, 0, fun _ => true⟩
def F.SB_WPOLLV.ECODE (w : Nat) : Field := ⟨0x80006 + 8 * w, 18, 8, .r, 0x00, fun _ => true⟩
def F.SB_WPOLLV.VALUE (w : Nat) : Field := ⟨0x80006 + 8 * w, 0, 18, .r, 0x00000, fun _ => true⟩

def F.SB_PBUF.IEN (n : Nat) : Field := ⟨0x80200 + n, 22, 1, .st, 0, fun _ => true⟩
def F.SB_PBUF.EN (n : Nat) : Field := ⟨0x80200 + n, 21, 1, .st, 0, fun _ => true⟩
def F.SB_PBUF.SRXBUF (n : Nat) : Field := ⟨0x80200 + n, 14, 7, .st, 0x00, fun _ => true⟩
def F.SB_PBUF.OTXBUF (n : Nat) : Field := ⟨0x80200 + n, 7, 7, .st, 0x00, fun _ => true⟩
def F.SB_PBUF.ITXBUF (n : Nat) : Field := ⟨0x80200 + n, 0, 7, .st, 0x00, fun _ => true⟩

def F.SB_CTRL.LEASE : Field := ⟨0x80800, 17, 12, .st, 0x00A, fun v => v != 0⟩
def F.SB_CTRL.TMO : Field := ⟨0x80800, 0, 17, .st, 0x000C8, fun v => 10 ≤ v && v ≤ 100000⟩

def F.SB_OPEN.INOPEN : Field := ⟨0x80803, 8, 5, .r, 0x00, fun _ => true⟩
def F.SB_OPEN.OUTOPEN : Field := ⟨0x80803, 0, 7, .r, 0x00, fun _ => true⟩

def F.SB_CNT0.STRAY : Field := ⟨0x80801, 27, 9, .rc, 0, fun _ => true⟩
def F.SB_CNT0.LATEOK : Field := ⟨0x80801, 18, 9, .rc, 0, fun _ => true⟩
def F.SB_CNT0.POLLSKIP : Field := ⟨0x80801, 9, 9, .rc, 0, fun _ => true⟩
def F.SB_CNT0.IREFUSE : Field := ⟨0x80801, 0, 9, .rc, 0, fun _ => true⟩

def F.SB_CNT1.OUTDROP : Field := ⟨0x80802, 27, 9, .rc, 0, fun _ => true⟩
def F.SB_CNT1.HBAD : Field := ⟨0x80802, 18, 9, .rc, 0, fun _ => true⟩
def F.SB_CNT1.PFSKIP : Field := ⟨0x80802, 9, 9, .rc, 0, fun _ => true⟩

def F.SB_DPLOG.TOTAL : Field := ⟨0x80804, 6, 16, .rc, 0x0000, fun _ => true⟩
def F.SB_DPLOG.NEXT : Field := ⟨0x80804, 0, 6, .r, 0x00, fun _ => true⟩

def F.SB_LELOG.TOTAL : Field := ⟨0x80805, 6, 16, .rc, 0x0000, fun _ => true⟩
def F.SB_LELOG.NEXT : Field := ⟨0x80805, 0, 6, .r, 0x00, fun _ => true⟩

def F.PW_PCFG.SLEEPST (n : Nat) : Field := ⟨0x4000 + 0x10 * n, 33, 3, .st, 0x3, fun v => 2 ≤ v && v ≤ 4⟩
def F.PW_PCFG.WAKEST (n : Nat) : Field := ⟨0x4000 + 0x10 * n, 32, 1, .st, 0, fun _ => true⟩
def F.PW_PCFG.HOLD (n : Nat) : Field := ⟨0x4000 + 0x10 * n, 31, 1, .rw, 0, fun _ => true⟩
def F.PW_PCFG.WACT (n : Nat) : Field := ⟨0x4000 + 0x10 * n, 29, 2, .st, 0x3, fun _ => true⟩
def F.PW_PCFG.LMDLY (n : Nat) : Field := ⟨0x4000 + 0x10 * n, 21, 8, .st, 0x32, fun _ => true⟩
def F.PW_PCFG.VWIN (n : Nat) : Field := ⟨0x4000 + 0x10 * n, 13, 8, .st, 0x02, fun v => v != 0⟩
def F.PW_PCFG.MINVOTE (n : Nat) : Field := ⟨0x4000 + 0x10 * n, 8, 5, .st, 0x00, fun _ => true⟩
def F.PW_PCFG.SDLY (n : Nat) : Field := ⟨0x4000 + 0x10 * n, 0, 8, .st, 0x04, fun v => v != 0⟩

def F.PW_WCFG.PWAKE (n : Nat) : Field := ⟨0x4001 + 0x10 * n, 30, 1, .st, 0, fun _ => true⟩
def F.PW_WCFG.SWEN (n : Nat) : Field := ⟨0x4001 + 0x10 * n, 29, 1, .st, 0, fun _ => true⟩
def F.PW_WCFG.BPEN (n : Nat) : Field := ⟨0x4001 + 0x10 * n, 28, 1, .st, 0, fun _ => true⟩
def F.PW_WCFG.WLEN (n : Nat) : Field := ⟨0x4001 + 0x10 * n, 27, 1, .st, 1, fun _ => true⟩
def F.PW_WCFG.WLFILT (n : Nat) : Field := ⟨0x4001 + 0x10 * n, 20, 7, .st, 0x14, fun v => 5 ≤ v && v ≤ 100⟩
def F.PW_WCFG.BPFILT (n : Nat) : Field := ⟨0x4001 + 0x10 * n, 13, 7, .st, 0x0A, fun v => 5 ≤ v && v ≤ 100⟩
def F.PW_WCFG.BPWIN (n : Nat) : Field := ⟨0x4001 + 0x10 * n, 9, 4, .st, 0x1, fun v => 1 ≤ v && v ≤ 10⟩
def F.PW_WCFG.WPULSE (n : Nat) : Field := ⟨0x4001 + 0x10 * n, 0, 9, .st, 0x064, fun v => 5 ≤ v && v ≤ 500⟩

def F.PW_WTIMER.TKEN (n : Nat) : Field := ⟨0x4002 + 0x10 * n, 25, 1, .st, 0, fun _ => true⟩
def F.PW_WTIMER.TMEN (n : Nat) : Field := ⟨0x4002 + 0x10 * n, 24, 1, .st, 0, fun _ => true⟩
def F.PW_WTIMER.MS (n : Nat) : Field := ⟨0x4002 + 0x10 * n, 0, 24, .st, 0x000000, fun _ => true⟩

def F.PW_WTICK.TICKNO (n : Nat) : Field := ⟨0x4003 + 0x10 * n, 0, 36, .st, 0, fun _ => true⟩

def F.PW_PSTAT.ROUND (n : Nat) : Field := ⟨0x4004 + 0x10 * n, 24, 6, .r, 0x00, fun _ => true⟩
def F.PW_PSTAT.RSTATE (n : Nat) : Field := ⟨0x4004 + 0x10 * n, 22, 2, .r, 0x0, fun _ => true⟩
def F.PW_PSTAT.COORD (n : Nat) : Field := ⟨0x4004 + 0x10 * n, 21, 1, .r, 0, fun _ => true⟩
def F.PW_PSTAT.RGROUP (n : Nat) : Field := ⟨0x4004 + 0x10 * n, 15, 6, .r, 0x00, fun _ => true⟩
def F.PW_PSTAT.AGREE (n : Nat) : Field := ⟨0x4004 + 0x10 * n, 10, 5, .r, 0x00, fun _ => true⟩
def F.PW_PSTAT.LASTSRC (n : Nat) : Field := ⟨0x4004 + 0x10 * n, 6, 4, .r, 0x0, fun _ => true⟩
def F.PW_PSTAT.PWRUP (n : Nat) : Field := ⟨0x4004 + 0x10 * n, 5, 1, .r, 0, fun _ => true⟩
def F.PW_PSTAT.STATE (n : Nat) : Field := ⟨0x4004 + 0x10 * n, 0, 3, .r, 0x4, fun _ => true⟩

def F.PW_GSLEEP.GSLEEP (n : Nat) : Field := ⟨0x4005 + 0x10 * n, 0, 32, .r, 0, fun _ => true⟩

def F.PW_PCNT.ROUNDS (n : Nat) : Field := ⟨0x4006 + 0x10 * n, 27, 9, .rc, 0, fun _ => true⟩
def F.PW_PCNT.ABORTS (n : Nat) : Field := ⟨0x4006 + 0x10 * n, 18, 9, .rc, 0, fun _ => true⟩
def F.PW_PCNT.REWAKE (n : Nat) : Field := ⟨0x4006 + 0x10 * n, 9, 9, .rc, 0, fun _ => true⟩
def F.PW_PCNT.STRAY (n : Nat) : Field := ⟨0x4006 + 0x10 * n, 0, 9, .rc, 0, fun _ => true⟩

def F.PW_NPRI.NPRI : Field := ⟨0x4600, 0, 11, .st, 0x010, fun v => v != 0⟩

def F.PW_WLOG.TOTAL : Field := ⟨0x4601, 6, 16, .rc, 0x0000, fun _ => true⟩
def F.PW_WLOG.NEXT : Field := ⟨0x4601, 0, 6, .r, 0x00, fun _ => true⟩

def F.PW_KALOG.TOTAL : Field := ⟨0x4602, 4, 16, .rc, 0x0000, fun _ => true⟩
def F.PW_KALOG.NEXT : Field := ⟨0x4602, 0, 4, .r, 0x0, fun _ => true⟩

def F.PW_GRP.GEN (n g : Nat) : Field := ⟨0x4800 + 0x20 * n + g, 20, 1, .st, 0, fun _ => true⟩
def F.PW_GRP.GMASK (n g : Nat) : Field := ⟨0x4800 + 0x20 * n + g, 10, 10, .st, 0x000, fun _ => true⟩
def F.PW_GRP.GVAL (n g : Nat) : Field := ⟨0x4800 + 0x20 * n + g, 0, 10, .st, 0x000, fun _ => true⟩

def F.PW_SWFID.EN (n f : Nat) : Field := ⟨0x5800 + 0x40 * n + 8 * f, 35, 1, .st, 0, fun _ => true⟩
def F.PW_SWFID.IDV (n f : Nat) : Field := ⟨0x5800 + 0x40 * n + 8 * f, 0, 32, .st, 0, fun _ => true⟩

def F.PW_SWFIM.IDM (n f : Nat) : Field := ⟨0x5801 + 0x40 * n + 8 * f, 0, 32, .st, 0, fun _ => true⟩

def F.PW_SWFPV0.PV (n f : Nat) : Field := ⟨0x5802 + 0x40 * n + 8 * f, 0, 36, .st, 0, fun _ => true⟩

def F.PW_SWFPV1.PV (n f : Nat) : Field := ⟨0x5803 + 0x40 * n + 8 * f, 0, 36, .st, 0, fun _ => true⟩

def F.PW_SWFPM0.PM (n f : Nat) : Field := ⟨0x5804 + 0x40 * n + 8 * f, 0, 36, .st, 0, fun _ => true⟩

def F.PW_SWFPM1.PM (n f : Nat) : Field := ⟨0x5805 + 0x40 * n + 8 * f, 0, 36, .st, 0, fun _ => true⟩

def F.BK_MCFG.AGELIM (b : Nat) : Field := ⟨0x1E011 + b * 0x100, 8, 4, .st, 0x4, fun _ => true⟩
def F.BK_MCFG.ROTEN (b : Nat) : Field := ⟨0x1E011 + b * 0x100, 4, 1, .st, 1, fun _ => true⟩
def F.BK_MCFG.DISLIM (b : Nat) : Field := ⟨0x1E011 + b * 0x100, 0, 4, .st, 0x3, fun v => v != 0⟩

def F.BK_MCHK.DISAG (b : Nat) : Field := ⟨0x1E012 + b * 0x100, 27, 9, .rc, 0, fun _ => true⟩
def F.BK_MCHK.COMPARED (b : Nat) : Field := ⟨0x1E012 + b * 0x100, 18, 9, .rc, 0, fun _ => true⟩
def F.BK_MCHK.RECDROP (b : Nat) : Field := ⟨0x1E012 + b * 0x100, 9, 9, .rc, 0, fun _ => true⟩

def F.BK_ECC.CORR (b : Nat) : Field := ⟨0x1E013 + b * 0x100, 20, 16, .rc, 0x0000, fun _ => true⟩
def F.BK_ECC.UNCORR (b : Nat) : Field := ⟨0x1E013 + b * 0x100, 12, 8, .rc, 0x00, fun _ => true⟩
def F.BK_ECC.LASTROW (b : Nat) : Field := ⟨0x1E013 + b * 0x100, 0, 9, .r, 0x000, fun _ => true⟩

def F.BK_ROWS.USED (b : Nat) : Field := ⟨0x1E014 + b * 0x100, 0, 6, .r, 0x00, fun _ => true⟩

def F.SP_ENGINE.SPARELANE : Field := ⟨0x90000, 32, 4, .r, 0xF, fun _ => true⟩
def F.SP_ENGINE.FAILED : Field := ⟨0x90000, 23, 9, .r, 0, fun _ => true⟩
def F.SP_ENGINE.SHLANE : Field := ⟨0x90000, 20, 3, .r, 0x0, fun _ => true⟩
def F.SP_ENGINE.SHPASS : Field := ⟨0x90000, 18, 2, .r, 0x0, fun _ => true⟩
def F.SP_ENGINE.CHKERR : Field := ⟨0x90000, 9, 9, .rc, 0, fun _ => true⟩
def F.SP_ENGINE.SHDIS : Field := ⟨0x90000, 0, 9, .rc, 0, fun _ => true⟩

def F.SP_LANE.FAILED : Field := ⟨0x90001, 18, 3, .r, 0, fun _ => true⟩
def F.SP_LANE.CODEERR : Field := ⟨0x90001, 9, 9, .rc, 0, fun _ => true⟩
def F.SP_LANE.PHYA : Field := ⟨0x90001, 4, 2, .r, 0x0, fun _ => true⟩
def F.SP_LANE.PHYB : Field := ⟨0x90001, 2, 2, .r, 0x1, fun _ => true⟩

def F.SP_SCRUB.PASSES : Field := ⟨0x90002, 18, 18, .r, 0, fun _ => true⟩
def F.SP_SCRUB.LASTMS : Field := ⟨0x90002, 0, 18, .r, 0, fun _ => true⟩

def F.SP_ROWCFG.RETLIM : Field := ⟨0x90003, 0, 4, .st, 0x4, fun v => v != 0⟩

def F.SP_CROWS.PATCH : Field := ⟨0x90004, 25, 3, .r, 0, fun _ => true⟩
def F.SP_CROWS.QUEUE : Field := ⟨0x90004, 20, 5, .r, 0, fun _ => true⟩
def F.SP_CROWS.SCALE : Field := ⟨0x90004, 16, 4, .r, 0, fun _ => true⟩
def F.SP_CROWS.KNOT : Field := ⟨0x90004, 10, 6, .r, 0, fun _ => true⟩
def F.SP_CROWS.EMIT : Field := ⟨0x90004, 5, 5, .r, 0, fun _ => true⟩
def F.SP_CROWS.CAPT : Field := ⟨0x90004, 0, 5, .r, 0, fun _ => true⟩

def F.SP_LEASE.SCRUB : Field := ⟨0x90005, 27, 9, .rc, 0, fun _ => true⟩
def F.SP_LEASE.WEAR : Field := ⟨0x90005, 18, 9, .rc, 0, fun _ => true⟩
def F.SP_LEASE.TELEM : Field := ⟨0x90005, 9, 9, .rc, 0, fun _ => true⟩
def F.SP_LEASE.AGING : Field := ⟨0x90005, 0, 9, .rc, 0, fun _ => true⟩

def F.SP_LEDGER.LOST : Field := ⟨0x90006, 14, 9, .rc, 0, fun _ => true⟩
def F.SP_LEDGER.LIVE : Field := ⟨0x90006, 7, 7, .r, 0x00, fun _ => true⟩
def F.SP_LEDGER.OTP : Field := ⟨0x90006, 0, 7, .r, 0x00, fun _ => true⟩

def F.SP_PAIR.ELIGN : Field := ⟨0x90010, 22, 8, .st, 0x10, fun v => v != 0⟩
def F.SP_PAIR.HLOSS : Field := ⟨0x90010, 18, 4, .st, 0x2, fun v => v != 0⟩
def F.SP_PAIR.AUTORS : Field := ⟨0x90010, 17, 1, .st, 1, fun _ => true⟩
def F.SP_PAIR.AUTO : Field := ⟨0x90010, 16, 1, .st, 1, fun _ => true⟩
def F.SP_PAIR.RSREQ : Field := ⟨0x90010, 11, 1, .sc, 0, fun _ => true⟩
def F.SP_PAIR.EN : Field := ⟨0x90010, 10, 1, .st, 0, fun _ => true⟩
def F.SP_PAIR.PAIRXOR : Field := ⟨0x90010, 0, 10, .st, 0x001, fun _ => true⟩

def F.SP_PSTAT.MATCHRUN : Field := ⟨0x90011, 12, 8, .r, 0x00, fun _ => true⟩
def F.SP_PSTAT.NCAUSE : Field := ⟨0x90011, 8, 4, .r, 0x7, fun _ => true⟩
def F.SP_PSTAT.SENIOR : Field := ⟨0x90011, 7, 1, .r, 0, fun _ => true⟩
def F.SP_PSTAT.RESYNC : Field := ⟨0x90011, 6, 1, .r, 0, fun _ => true⟩
def F.SP_PSTAT.LINK : Field := ⟨0x90011, 4, 2, .r, 0x0, fun _ => true⟩
def F.SP_PSTAT.PELIG : Field := ⟨0x90011, 3, 1, .r, 0, fun _ => true⟩
def F.SP_PSTAT.ELIG : Field := ⟨0x90011, 2, 1, .r, 0, fun _ => true⟩
def F.SP_PSTAT.ROLE : Field := ⟨0x90011, 0, 2, .r, 0x0, fun _ => true⟩

def F.SP_DIGCNT.MISMATCH : Field := ⟨0x90012, 27, 9, .rc, 0, fun _ => true⟩
def F.SP_DIGCNT.VOID : Field := ⟨0x90012, 18, 9, .rc, 0, fun _ => true⟩
def F.SP_DIGCNT.MISSING : Field := ⟨0x90012, 9, 9, .rc, 0, fun _ => true⟩
def F.SP_DIGCNT.SWITCH : Field := ⟨0x90012, 0, 9, .rc, 0, fun _ => true⟩

def F.SP_TDLY.DELAY : Field := ⟨0x90013, 0, 12, .r, 0x000, fun _ => true⟩

def F.CE_CFG.WAITLIM : Field := ⟨0x2018, 0, 8, .rw, 0x10, fun v => v != 0⟩

def F.CE_STAT.EXEC : Field := ⟨0x2019, 20, 8, .r, 0x00, fun _ => true⟩
def F.CE_STAT.WAIT : Field := ⟨0x2019, 16, 4, .r, 0x0, fun _ => true⟩
def F.CE_STAT.HOFF : Field := ⟨0x2019, 8, 8, .r, 0x00, fun _ => true⟩
def F.CE_STAT.LOCK : Field := ⟨0x2019, 7, 1, .r, 0, fun _ => true⟩
def F.CE_STAT.PATCH : Field := ⟨0x2019, 6, 1, .r, 0, fun _ => true⟩

def F.CE_COMMIT.TICKNO : Field := ⟨0x201A, 0, 36, .r, 0, fun _ => true⟩

def F.CE_JLOG.TOTAL : Field := ⟨0x201B, 12, 16, .rc, 0x0000, fun _ => true⟩
def F.CE_JLOG.NEXT : Field := ⟨0x201B, 0, 12, .r, 0x000, fun _ => true⟩

def F.CE_LEDG.OPEN : Field := ⟨0x201C, 9, 9, .r, 0x000, fun _ => true⟩
def F.CE_LEDG.KEPT : Field := ⟨0x201C, 0, 9, .r, 0x000, fun _ => true⟩

def F.CE_PATCH.PID : Field := ⟨0x201D, 18, 18, .r, 0x00000, fun _ => true⟩
def F.CE_PATCH.NWORDS : Field := ⟨0x201D, 0, 12, .r, 0x000, fun _ => true⟩

def F.CE_CNT.BADOP : Field := ⟨0x201E, 27, 9, .rc, 0, fun _ => true⟩
def F.CE_CNT.BADARG : Field := ⟨0x201E, 18, 9, .rc, 0, fun _ => true⟩
def F.CE_CNT.WAITOUT : Field := ⟨0x201E, 9, 9, .rc, 0, fun _ => true⟩
def F.CE_CNT.LOCKDISC : Field := ⟨0x201E, 0, 9, .rc, 0, fun _ => true⟩

def F.HP_CTRL.IRQOD : Field := ⟨0x3100, 2, 1, .rw, 0, fun _ => true⟩
def F.HP_CTRL.POISON : Field := ⟨0x3100, 1, 1, .rw, 1, fun _ => true⟩
def F.HP_CTRL.PCHK : Field := ⟨0x3100, 0, 1, .rw, 1, fun _ => true⟩

def F.HP_IRQEN.EN : Field := ⟨0x3101, 0, 4, .rw, 0x8, fun _ => true⟩

def F.HP_IRQSTAT.RAW : Field := ⟨0x3102, 4, 4, .r, 0x0, fun _ => true⟩
def F.HP_IRQSTAT.PEND : Field := ⟨0x3102, 0, 4, .r, 0x0, fun _ => true⟩

def F.HP_ERR.PARERR : Field := ⟨0x3103, 27, 9, .rc, 0, fun _ => true⟩
def F.HP_ERR.DISC : Field := ⟨0x3103, 18, 9, .rc, 0, fun _ => true⟩
def F.HP_ERR.VOID : Field := ⟨0x3103, 9, 9, .rc, 0, fun _ => true⟩
def F.HP_ERR.UNCORR : Field := ⟨0x3103, 0, 9, .rc, 0, fun _ => true⟩

def F.HP_DISCAP.CAUSE : Field := ⟨0x3104, 32, 4, .r, 0x0, fun _ => true⟩
def F.HP_DISCAP.RD : Field := ⟨0x3104, 31, 1, .r, 0, fun _ => true⟩
def F.HP_DISCAP.ADDR : Field := ⟨0x3104, 0, 20, .r, 0x00000, fun _ => true⟩

def F.HP_UCAP.WORDS : Field := ⟨0x3105, 20, 2, .r, 0x0, fun _ => true⟩
def F.HP_UCAP.ADDR : Field := ⟨0x3105, 0, 20, .r, 0x00000, fun _ => true⟩

def F.SYS_FAULT.PWR : Field := ⟨0x10, 3, 1, .w1c, 0, fun _ => true⟩
def F.SYS_FAULT.UNSERVED : Field := ⟨0x10, 2, 1, .r, 0, fun _ => true⟩
def F.SYS_FAULT.NOLANE : Field := ⟨0x10, 1, 1, .r, 0, fun _ => true⟩
def F.SYS_FAULT.CHIP : Field := ⟨0x10, 0, 1, .w1c, 0, fun _ => true⟩

def F.SYS_SYSADDR.SYSADDR : Field := ⟨0x0, 0, 14, .st, 0x0000, fun _ => true⟩

def F.SYS_SCRATCH.SCRATCH : Field := ⟨0x1, 0, 36, .rw, 0x000000000, fun _ => true⟩

def F.SYS_DEVID.VENDOR : Field := ⟨0xF0000, 18, 12, .r, 0xEB1, fun _ => true⟩
def F.SYS_DEVID.DEVICE : Field := ⟨0xF0000, 0, 18, .r, 0x09612, fun _ => true⟩

def F.SYS_STEP.ROMVER : Field := ⟨0xF0001, 18, 18, .r, Config.romVersion, fun _ => true⟩
def F.SYS_STEP.STEPPING : Field := ⟨0xF0001, 0, 8, .r, Config.stepping, fun _ => true⟩

def F.SYS_SERIAL0.SERLO : Field := ⟨0xF0002, 0, 36, .r, Config.serialLo, fun _ => true⟩

def F.SYS_SERIAL1.SERHI : Field := ⟨0xF0003, 0, 36, .r, Config.serialHi, fun _ => true⟩

def F.SYS_STRAP.BOOTSEL : Field := ⟨0x20, 2, 2, .r, 0, fun _ => true⟩
def F.SYS_STRAP.PORTSTART : Field := ⟨0x20, 1, 1, .r, 0, fun _ => true⟩
def F.SYS_STRAP.SENIOR : Field := ⟨0x20, 0, 1, .r, 0, fun _ => true⟩

def F.SYS_RSTCAUSE.STROWS : Field := ⟨0x21, 12, 8, .r, 0, fun _ => true⟩
def F.SYS_RSTCAUSE.STFAIL : Field := ⟨0x21, 6, 1, .r, 0, fun _ => true⟩
def F.SYS_RSTCAUSE.QUICK : Field := ⟨0x21, 5, 1, .r, 0, fun _ => true⟩
def F.SYS_RSTCAUSE.THERMAL : Field := ⟨0x21, 4, 1, .w1c, 0, fun _ => true⟩
def F.SYS_RSTCAUSE.CLOCK : Field := ⟨0x21, 3, 1, .w1c, 0, fun _ => true⟩
def F.SYS_RSTCAUSE.PIN : Field := ⟨0x21, 2, 1, .w1c, 0, fun _ => true⟩
def F.SYS_RSTCAUSE.BROWNOUT : Field := ⟨0x21, 1, 1, .w1c, 0, fun _ => true⟩
def F.SYS_RSTCAUSE.POR : Field := ⟨0x21, 0, 1, .w1c, 0, fun _ => true⟩

def F.SYS_PLLSTAT.TLOSS : Field := ⟨0x22, 18, 8, .rc, 0x00, fun _ => true⟩
def F.SYS_PLLSTAT.TLOCK : Field := ⟨0x22, 17, 1, .r, 0, fun _ => true⟩
def F.SYS_PLLSTAT.TRUN : Field := ⟨0x22, 16, 1, .r, 0, fun _ => true⟩
def F.SYS_PLLSTAT.LOCK : Field := ⟨0x22, 15, 1, .r, 1, fun _ => true⟩
def F.SYS_PLLSTAT.LOCKUS : Field := ⟨0x22, 0, 15, .r, 0, fun _ => true⟩

def F.SYS_PWRDOM.PWRUP : Field := ⟨0x23, 12, 12, .r, 0x000, fun _ => true⟩
def F.SYS_PWRDOM.ON : Field := ⟨0x23, 0, 12, .r, 0, fun _ => true⟩

def F.SYS_TELCFG.DROP : Field := ⟨0x90800, 27, 9, .rc, 0, fun _ => true⟩
def F.SYS_TELCFG.TWARN : Field := ⟨0x90800, 11, 8, .rw, 0x73, fun v => 60 ≤ v && v ≤ 125⟩
def F.SYS_TELCFG.PERIOD : Field := ⟨0x90800, 0, 11, .rw, 0x000, fun _ => true⟩

def F.SYS_TEMP.EXCL (i : Nat) : Field := ⟨0x90801 + i, 24, 1, .r, 0, fun _ => true⟩
def F.SYS_TEMP.PEAK (i : Nat) : Field := ⟨0x90801 + i, 12, 12, .rc, 0x000, fun _ => true⟩
def F.SYS_TEMP.TEMP (i : Nat) : Field := ⟨0x90801 + i, 0, 12, .r, 0x000, fun _ => true⟩

def F.SYS_VMON.VAUX : Field := ⟨0x90805, 24, 12, .r, 0x000, fun _ => true⟩
def F.SYS_VMON.VSD : Field := ⟨0x90805, 12, 12, .r, 0x000, fun _ => true⟩
def F.SYS_VMON.VCORE : Field := ⟨0x90805, 0, 12, .r, 0x000, fun _ => true⟩

def F.SYS_BUSLOAD.PEAK (n : Nat) : Field := ⟨0x90840 + n, 18, 10, .rc, 0x000, fun _ => true⟩
def F.SYS_BUSLOAD.LOAD (n : Nat) : Field := ⟨0x90840 + n, 0, 10, .r, 0x000, fun _ => true⟩

def F.BK_FAULT.FAILED0 (b : Nat) : Field := ⟨0x1E010 + b * 0x100, 3, 1, .r, 0, fun _ => true⟩
def F.BK_FAULT.CAUSE0 (b : Nat) : Field := ⟨0x1E010 + b * 0x100, 0, 3, .r, 0x0, fun _ => true⟩
def F.BK_FAULT.FAILED1 (b : Nat) : Field := ⟨0x1E010 + b * 0x100, 7, 1, .r, 0, fun _ => true⟩
def F.BK_FAULT.CAUSE1 (b : Nat) : Field := ⟨0x1E010 + b * 0x100, 4, 3, .r, 0x0, fun _ => true⟩
def F.BK_FAULT.FAILED2 (b : Nat) : Field := ⟨0x1E010 + b * 0x100, 11, 1, .r, 0, fun _ => true⟩
def F.BK_FAULT.CAUSE2 (b : Nat) : Field := ⟨0x1E010 + b * 0x100, 8, 3, .r, 0x0, fun _ => true⟩
def F.BK_FAULT.FAILED3 (b : Nat) : Field := ⟨0x1E010 + b * 0x100, 15, 1, .r, 0, fun _ => true⟩
def F.BK_FAULT.CAUSE3 (b : Nat) : Field := ⟨0x1E010 + b * 0x100, 12, 3, .r, 0x0, fun _ => true⟩
def F.BK_FAULT.FAILED4 (b : Nat) : Field := ⟨0x1E010 + b * 0x100, 19, 1, .r, 0, fun _ => true⟩
def F.BK_FAULT.CAUSE4 (b : Nat) : Field := ⟨0x1E010 + b * 0x100, 16, 3, .r, 0x0, fun _ => true⟩
def F.BK_FAULT.FAILED5 (b : Nat) : Field := ⟨0x1E010 + b * 0x100, 23, 1, .r, 0, fun _ => true⟩
def F.BK_FAULT.CAUSE5 (b : Nat) : Field := ⟨0x1E010 + b * 0x100, 20, 3, .r, 0x0, fun _ => true⟩
def F.BK_FAULT.FAILED6 (b : Nat) : Field := ⟨0x1E010 + b * 0x100, 27, 1, .r, 0, fun _ => true⟩
def F.BK_FAULT.CAUSE6 (b : Nat) : Field := ⟨0x1E010 + b * 0x100, 24, 3, .r, 0x0, fun _ => true⟩
def F.BK_FAULT.FAILED7 (b : Nat) : Field := ⟨0x1E010 + b * 0x100, 31, 1, .r, 0, fun _ => true⟩
def F.BK_FAULT.CAUSE7 (b : Nat) : Field := ⟨0x1E010 + b * 0x100, 28, 3, .r, 0x0, fun _ => true⟩
def F.BK_FAULT.FAILED8 (b : Nat) : Field := ⟨0x1E010 + b * 0x100, 35, 1, .r, 0, fun _ => true⟩
def F.BK_FAULT.CAUSE8 (b : Nat) : Field := ⟨0x1E010 + b * 0x100, 32, 3, .r, 0x0, fun _ => true⟩

def F.BK_AGE.MARGIN0 (b : Nat) : Field := ⟨0x1E015 + b * 0x100, 0, 4, .r, 0xF, fun _ => true⟩
def F.BK_AGE.MARGIN1 (b : Nat) : Field := ⟨0x1E015 + b * 0x100, 4, 4, .r, 0xF, fun _ => true⟩
def F.BK_AGE.MARGIN2 (b : Nat) : Field := ⟨0x1E015 + b * 0x100, 8, 4, .r, 0xF, fun _ => true⟩
def F.BK_AGE.MARGIN3 (b : Nat) : Field := ⟨0x1E015 + b * 0x100, 12, 4, .r, 0xF, fun _ => true⟩
def F.BK_AGE.MARGIN4 (b : Nat) : Field := ⟨0x1E015 + b * 0x100, 16, 4, .r, 0xF, fun _ => true⟩
def F.BK_AGE.MARGIN5 (b : Nat) : Field := ⟨0x1E015 + b * 0x100, 20, 4, .r, 0xF, fun _ => true⟩
def F.BK_AGE.MARGIN6 (b : Nat) : Field := ⟨0x1E015 + b * 0x100, 24, 4, .r, 0xF, fun _ => true⟩
def F.BK_AGE.MARGIN7 (b : Nat) : Field := ⟨0x1E015 + b * 0x100, 28, 4, .r, 0xF, fun _ => true⟩
def F.BK_AGE.MARGIN8 (b : Nat) : Field := ⟨0x1E015 + b * 0x100, 32, 4, .r, 0xF, fun _ => true⟩

/-- A register: its fields, highest bit first. -/
abbrev Reg := List Field

def R.BK_PINMUX (b : Nat) : Reg := [F.BK_PINMUX.MLISTEN b, F.BK_PINMUX.SLOT7 b, F.BK_PINMUX.SLOT6 b,
  F.BK_PINMUX.SLOT5 b, F.BK_PINMUX.SLOT4 b, F.BK_PINMUX.SLOT3 b, F.BK_PINMUX.SLOT2 b, F.BK_PINMUX.SLOT1 b,
  F.BK_PINMUX.SLOT0 b]
def R.TK_CTRL : Reg := [F.TK_CTRL.REACQ, F.TK_CTRL.STEP_EN, F.TK_CTRL.OUT_EN]
def R.TK_PERIOD : Reg := [F.TK_PERIOD.PERIOD]
def R.TK_DL_CAPTURE : Reg := [F.TK_DL_CAPTURE.OFFSET]
def R.TK_DL_MAP : Reg := [F.TK_DL_MAP.OFFSET]
def R.TK_DL_EMIT : Reg := [F.TK_DL_EMIT.OFFSET]
def R.TK_REACT : Reg := [F.TK_REACT.CELL_EMIT, F.TK_REACT.CELL_CAP, F.TK_REACT.BLK_EMIT, F.TK_REACT.BLK_CAP,
  F.TK_REACT.RGN_EMIT, F.TK_REACT.RGN_CAP, F.TK_REACT.CHIP_EMIT, F.TK_REACT.CHIP_MAP, F.TK_REACT.CHIP_CAP]
def R.TK_SRC : Reg := [F.TK_SRC.HOLD_EXP, F.TK_SRC.PORT, F.TK_SRC.SRC2, F.TK_SRC.SRC]
def R.TK_HOPDLY : Reg := [F.TK_HOPDLY.LOCKLIM, F.TK_HOPDLY.HOPDLY]
def R.TK_STATUS : Reg := [F.TK_STATUS.FALLBACK, F.TK_STATUS.PHASE, F.TK_STATUS.SYSTIME, F.TK_STATUS.SRCACT,
  F.TK_STATUS.STATE]
def R.TK_TICKNO : Reg := [F.TK_TICKNO.TICKNO]
def R.TK_TIME_LO : Reg := [F.TK_TIME_LO.TIME_LO]
def R.TK_TIME_HI : Reg := [F.TK_TIME_HI.TIME_HI]
def R.TK_PHERR : Reg := [F.TK_PHERR.RATE, F.TK_PHERR.PHERR]
def R.TK_MISS : Reg := [F.TK_MISS.HOUSE, F.TK_MISS.EMIT, F.TK_MISS.MAP, F.TK_MISS.CAPTURE]
def R.TK_DONE_CAPTURE : Reg := [F.TK_DONE_CAPTURE.DONE]
def R.TK_DONE_MAP : Reg := [F.TK_DONE_MAP.DONE]
def R.TK_DONE_EMIT : Reg := [F.TK_DONE_EMIT.DONE]
def R.TK_WORDERR : Reg := [F.TK_WORDERR.DISCARD, F.TK_WORDERR.NUMADOPT, F.TK_WORDERR.MISSING, F.TK_WORDERR.CRCERR]
def R.BK_DLMISS (b : Nat) : Reg := [F.BK_DLMISS.CELL_EMIT b, F.BK_DLMISS.CELL_CAP b, F.BK_DLMISS.BLK_EMIT b,
  F.BK_DLMISS.BLK_CAP b]
def R.RG_DLMISS (g : Nat) : Reg := [F.RG_DLMISS.RGN_EMIT g, F.RG_DLMISS.RGN_CAP g]
def R.CL_NATIVE (c : Nat) : Reg := [F.CL_NATIVE.GUARD c, F.CL_NATIVE.ORIGIN c]
def R.CL_BEACON (c : Nat) : Reg := [F.CL_BEACON.BCN_OFS c, F.CL_BEACON.BAND c, F.CL_BEACON.WIN c, F.CL_BEACON.CAND c]
def R.CL_BCNSTAT (c : Nat) : Reg := [F.CL_BCNSTAT.WIN c, F.CL_BCNSTAT.BAND c, F.CL_BCNSTAT.WINOPEN c,
  F.CL_BCNSTAT.SELF c, F.CL_BCNSTAT.MASTER c]
def R.CL_NATCNT (c : Nat) : Reg := [F.CL_NATCNT.DUPORG c, F.CL_NATCNT.BCNMISS c, F.CL_NATCNT.BCNDROP c,
  F.CL_NATCNT.BCNBAD c]
def R.CL_BANDLOG (c : Nat) : Reg := [F.CL_BANDLOG.COUNT c, F.CL_BANDLOG.PRI c, F.CL_BANDLOG.ORG c]
def R.CL_COMPAT (c : Nat) : Reg := [F.CL_COMPAT.PXHD c, F.CL_COMPAT.BRSE c, F.CL_COMPAT.FDOE c]
def R.CL_COMPCNT (c : Nat) : Reg := [F.CL_COMPCNT.OVLD c, F.CL_COMPCNT.PEXC c]
def R.CL_NBT (c : Nat) : Reg := [F.CL_NBT.BRP c, F.CL_NBT.TSEG1 c, F.CL_NBT.TSEG2 c, F.CL_NBT.SJW c]
def R.CL_DBT (c : Nat) : Reg := [F.CL_DBT.BRP_D c, F.CL_DBT.TSEG1_D c, F.CL_DBT.TSEG2_D c, F.CL_DBT.SJW_D c]
def R.CL_TDC (c : Nat) : Reg := [F.CL_TDC.TDCE c, F.CL_TDC.TDCO c, F.CL_TDC.TDCF c]
def R.CL_TDCSTAT (c : Nat) : Reg := [F.CL_TDCSTAT.RANGE c, F.CL_TDCSTAT.VALID c, F.CL_TDCSTAT.CLAMP c,
  F.CL_TDCSTAT.TDCV c]
def R.CL_ARCTRL (c : Nat) : Reg := [F.CL_ARCTRL.DWELL c, F.CL_ARCTRL.PASSES c, F.CL_ARCTRL.NEEDED c,
  F.CL_ARCTRL.GLITCH c]
def R.CL_ARSTAT (c : Nat) : Reg := [F.CL_ARSTAT.TMIN c, F.CL_ARSTAT.GOOD c, F.CL_ARSTAT.PASS c, F.CL_ARSTAT.CAND c,
  F.CL_ARSTAT.STATE c]
def R.CL_ARCANDN (c k : Nat) : Reg := [F.CL_ARCANDN.VALID c k, F.CL_ARCANDN.NBT c k]
def R.CL_ARCANDD (c k : Nat) : Reg := [F.CL_ARCANDD.DBT c k]
def R.CL_STATUS (c : Nat) : Reg := [F.CL_STATUS.LASTEV c, F.CL_STATUS.SEQCNT c, F.CL_STATUS.RECOV c,
  F.CL_STATUS.SUSP c, F.CL_STATUS.ALONE c, F.CL_STATUS.EWARN c, F.CL_STATUS.TXACT c, F.CL_STATUS.RXACT c,
  F.CL_STATUS.TEST c, F.CL_STATUS.PROTO c, F.CL_STATUS.CONF c]
def R.CL_OPMODE (c : Nat) : Reg := [F.CL_OPMODE.TEST c, F.CL_OPMODE.PROTO c]
def R.CL_ERRCTRL (c : Nat) : Reg := [F.CL_ERRCTRL.DELAY c, F.CL_ERRCTRL.RECMODE c, F.CL_ERRCTRL.PACE c,
  F.CL_ERRCTRL.RELEASE c, F.CL_ERRCTRL.RETRY c]
def R.CL_ECNT (c : Nat) : Reg := [F.CL_ECNT.TEC c, F.CL_ECNT.REC c]
def R.CL_ERRCAP (c : Nat) : Reg := [F.CL_ERRCAP.TYPE c, F.CL_ERRCAP.ROLE c, F.CL_ERRCAP.DPH c, F.CL_ERRCAP.POS c,
  F.CL_ERRCAP.FIELD c, F.CL_ERRCAP.NEW c]
def R.CL_ERRCNTA (c : Nat) : Reg := [F.CL_ERRCNTA.BIT c, F.CL_ERRCNTA.STUFF c, F.CL_ERRCNTA.FORM c,
  F.CL_ERRCNTA.CRC c]
def R.CL_ERRCNTB (c : Nat) : Reg := [F.CL_ERRCNTB.ACK c, F.CL_ERRCNTB.DOMX c, F.CL_ERRCNTB.DATAPH c,
  F.CL_ERRCNTB.BUSOFF c]
def R.CL_SOLO (c : Nat) : Reg := [F.CL_SOLO.ENTRIES c, F.CL_SOLO.ACKRUN c]
def R.CL_CLASHCTL (c : Nat) : Reg := [F.CL_CLASHCTL.EN c, F.CL_CLASHCTL.KMASK c, F.CL_CLASHCTL.PRI_HI c,
  F.CL_CLASHCTL.PRI_LO c]
def R.CL_CLASHLOG0 (c : Nat) : Reg := [F.CL_CLASHLOG0.COUNT c, F.CL_CLASHLOG0.OVF c, F.CL_CLASHLOG0.KIND c,
  F.CL_CLASHLOG0.PRI c]
def R.CL_CLASHLOG1 (c : Nat) : Reg := [F.CL_CLASHLOG1.IDENT c]
def R.CL_FILTCNT (c : Nat) : Reg := [F.CL_FILTCNT.NOMATCH c, F.CL_FILTCNT.DISCARD c, F.CL_FILTCNT.LOST c,
  F.CL_FILTCNT.QDROP c]
def R.CL_TXSTAT (c : Nat) : Reg := [F.CL_TXSTAT.WDCNT c, F.CL_TXSTAT.READY c, F.CL_TXSTAT.READYV c,
  F.CL_TXSTAT.ACTIVE c, F.CL_TXSTAT.ACTV c, F.CL_TXSTAT.PENDCNT c]
def R.CL_TXPEND (c j : Nat) : Reg := [F.CL_TXPEND.PEND c j]
def R.QWM (q : Nat) : Reg := [F.QWM.HWM q, F.QWM.LWM q]
def R.QCFG (q : Nat) : Reg := [F.QCFG.BIND q, F.QCFG.EN q, F.QCFG.BASE q]
def R.QCTL (q : Nat) : Reg := [F.QCTL.FLUSH q, F.QCTL.NIRQ q, F.QCTL.CEIL q]
def R.QSTAT (q : Nat) : Reg := [F.QSTAT.HI q, F.QSTAT.LO q, F.QSTAT.CREDIT q, F.QSTAT.VIS q]
def R.QMON (q : Nat) : Reg := [F.QMON.HNOT q, F.QMON.LNOT q, F.QMON.HCROSS q, F.QMON.LCROSS q, F.QMON.CORR q]
def R.QCNT (q : Nat) : Reg := [F.QCNT.CRV q, F.QCNT.BADPKT q, F.QCNT.PKTS q]
def R.GW_HWCTRL : Reg := [F.GW_HWCTRL.WE]
def R.GW_HWSTAT : Reg := [F.GW_HWSTAT.DISC, F.GW_HWSTAT.FILL]
def R.GW_MAPSTAT : Reg := [F.GW_MAPSTAT.LISTS, F.GW_MAPSTAT.TSCHED]
def R.GW_KNOTTOT : Reg := [F.GW_KNOTTOT.TOTAL]
def R.GW_ERR : Reg := [F.GW_ERR.INVALID, F.GW_ERR.TRUNC]
def R.GW_SATCNT : Reg := [F.GW_SATCNT.SAT]
def R.GW_DIGEST : Reg := [F.GW_DIGEST.DIGEST]
def R.GW_DIGTICK : Reg := [F.GW_DIGTICK.TICKNO]
def R.GW_SWTICK : Reg := [F.GW_SWTICK.TICKNO]
def R.GW_LISTHEAD (l : Nat) : Reg := [F.GW_LISTHEAD.STAGE l, F.GW_LISTHEAD.COUNT l, F.GW_LISTHEAD.EN l,
  F.GW_LISTHEAD.HEAD l]
def R.GW_PFSTAT : Reg := [F.GW_PFSTAT.AREAW, F.GW_PFSTAT.BOUND]
def R.GW_PFCNT0 : Reg := [F.GW_PFCNT0.OUTDROP, F.GW_PFCNT0.EDGEINV, F.GW_PFCNT0.MALF, F.GW_PFCNT0.MDREF]
def R.GW_PFCNT1 : Reg := [F.GW_PFCNT1.HTMO, F.GW_PFCNT1.HLATE, F.GW_PFCNT1.HREJ]
def R.SB_WCFG (w : Nat) : Reg := [F.SB_WCFG.EN w, F.SB_WCFG.NOSE w, F.SB_WCFG.LANE w, F.SB_WCFG.LOCKOK w,
  F.SB_WCFG.PFDEPTH w, F.SB_WCFG.PORT w, F.SB_WCFG.ORG w]
def R.SB_WBASE (w : Nat) : Reg := [F.SB_WBASE.BASE w]
def R.SB_WRANGE (w : Nat) : Reg := [F.SB_WRANGE.PRI w, F.SB_WRANGE.SIZE w]
def R.SB_WPOLL (w : Nat) : Reg := [F.SB_WPOLL.PINT w, F.SB_WPOLL.POFS w]
def R.SB_WSTAT (w : Nat) : Reg := [F.SB_WSTAT.MISDECL w, F.SB_WSTAT.LOCKED w, F.SB_WSTAT.LEASE w]
def R.SB_WPF (w : Nat) : Reg := [F.SB_WPF.INFL w, F.SB_WPF.PFCNT w, F.SB_WPF.PFBASE w]
def R.SB_WPOLLV (w : Nat) : Reg := [F.SB_WPOLLV.VALID w, F.SB_WPOLLV.ERR w, F.SB_WPOLLV.TMO w, F.SB_WPOLLV.ECODE w,
  F.SB_WPOLLV.VALUE w]
def R.SB_PBUF (n : Nat) : Reg := [F.SB_PBUF.IEN n, F.SB_PBUF.EN n, F.SB_PBUF.SRXBUF n, F.SB_PBUF.OTXBUF n,
  F.SB_PBUF.ITXBUF n]
def R.SB_CTRL : Reg := [F.SB_CTRL.LEASE, F.SB_CTRL.TMO]
def R.SB_OPEN : Reg := [F.SB_OPEN.INOPEN, F.SB_OPEN.OUTOPEN]
def R.SB_CNT0 : Reg := [F.SB_CNT0.STRAY, F.SB_CNT0.LATEOK, F.SB_CNT0.POLLSKIP, F.SB_CNT0.IREFUSE]
def R.SB_CNT1 : Reg := [F.SB_CNT1.OUTDROP, F.SB_CNT1.HBAD, F.SB_CNT1.PFSKIP]
def R.SB_DPLOG : Reg := [F.SB_DPLOG.TOTAL, F.SB_DPLOG.NEXT]
def R.SB_LELOG : Reg := [F.SB_LELOG.TOTAL, F.SB_LELOG.NEXT]
def R.PW_PCFG (n : Nat) : Reg := [F.PW_PCFG.SLEEPST n, F.PW_PCFG.WAKEST n, F.PW_PCFG.HOLD n, F.PW_PCFG.WACT n,
  F.PW_PCFG.LMDLY n, F.PW_PCFG.VWIN n, F.PW_PCFG.MINVOTE n, F.PW_PCFG.SDLY n]
def R.PW_WCFG (n : Nat) : Reg := [F.PW_WCFG.PWAKE n, F.PW_WCFG.SWEN n, F.PW_WCFG.BPEN n, F.PW_WCFG.WLEN n,
  F.PW_WCFG.WLFILT n, F.PW_WCFG.BPFILT n, F.PW_WCFG.BPWIN n, F.PW_WCFG.WPULSE n]
def R.PW_WTIMER (n : Nat) : Reg := [F.PW_WTIMER.TKEN n, F.PW_WTIMER.TMEN n, F.PW_WTIMER.MS n]
def R.PW_WTICK (n : Nat) : Reg := [F.PW_WTICK.TICKNO n]
def R.PW_PSTAT (n : Nat) : Reg := [F.PW_PSTAT.ROUND n, F.PW_PSTAT.RSTATE n, F.PW_PSTAT.COORD n, F.PW_PSTAT.RGROUP n,
  F.PW_PSTAT.AGREE n, F.PW_PSTAT.LASTSRC n, F.PW_PSTAT.PWRUP n, F.PW_PSTAT.STATE n]
def R.PW_GSLEEP (n : Nat) : Reg := [F.PW_GSLEEP.GSLEEP n]
def R.PW_PCNT (n : Nat) : Reg := [F.PW_PCNT.ROUNDS n, F.PW_PCNT.ABORTS n, F.PW_PCNT.REWAKE n, F.PW_PCNT.STRAY n]
def R.PW_NPRI : Reg := [F.PW_NPRI.NPRI]
def R.PW_WLOG : Reg := [F.PW_WLOG.TOTAL, F.PW_WLOG.NEXT]
def R.PW_KALOG : Reg := [F.PW_KALOG.TOTAL, F.PW_KALOG.NEXT]
def R.PW_GRP (n g : Nat) : Reg := [F.PW_GRP.GEN n g, F.PW_GRP.GMASK n g, F.PW_GRP.GVAL n g]
def R.PW_SWFID (n f : Nat) : Reg := [F.PW_SWFID.EN n f, F.PW_SWFID.IDV n f]
def R.PW_SWFIM (n f : Nat) : Reg := [F.PW_SWFIM.IDM n f]
def R.PW_SWFPV0 (n f : Nat) : Reg := [F.PW_SWFPV0.PV n f]
def R.PW_SWFPV1 (n f : Nat) : Reg := [F.PW_SWFPV1.PV n f]
def R.PW_SWFPM0 (n f : Nat) : Reg := [F.PW_SWFPM0.PM n f]
def R.PW_SWFPM1 (n f : Nat) : Reg := [F.PW_SWFPM1.PM n f]
def R.BK_MCFG (b : Nat) : Reg := [F.BK_MCFG.AGELIM b, F.BK_MCFG.ROTEN b, F.BK_MCFG.DISLIM b]
def R.BK_MCHK (b : Nat) : Reg := [F.BK_MCHK.DISAG b, F.BK_MCHK.COMPARED b, F.BK_MCHK.RECDROP b]
def R.BK_ECC (b : Nat) : Reg := [F.BK_ECC.CORR b, F.BK_ECC.UNCORR b, F.BK_ECC.LASTROW b]
def R.BK_ROWS (b : Nat) : Reg := [F.BK_ROWS.USED b]
def R.SP_ENGINE : Reg := [F.SP_ENGINE.SPARELANE, F.SP_ENGINE.FAILED, F.SP_ENGINE.SHLANE, F.SP_ENGINE.SHPASS,
  F.SP_ENGINE.CHKERR, F.SP_ENGINE.SHDIS]
def R.SP_LANE : Reg := [F.SP_LANE.FAILED, F.SP_LANE.CODEERR, F.SP_LANE.PHYA, F.SP_LANE.PHYB]
def R.SP_SCRUB : Reg := [F.SP_SCRUB.PASSES, F.SP_SCRUB.LASTMS]
def R.SP_ROWCFG : Reg := [F.SP_ROWCFG.RETLIM]
def R.SP_CROWS : Reg := [F.SP_CROWS.PATCH, F.SP_CROWS.QUEUE, F.SP_CROWS.SCALE, F.SP_CROWS.KNOT, F.SP_CROWS.EMIT,
  F.SP_CROWS.CAPT]
def R.SP_LEASE : Reg := [F.SP_LEASE.SCRUB, F.SP_LEASE.WEAR, F.SP_LEASE.TELEM, F.SP_LEASE.AGING]
def R.SP_LEDGER : Reg := [F.SP_LEDGER.LOST, F.SP_LEDGER.LIVE, F.SP_LEDGER.OTP]
def R.SP_PAIR : Reg := [F.SP_PAIR.ELIGN, F.SP_PAIR.HLOSS, F.SP_PAIR.AUTORS, F.SP_PAIR.AUTO, F.SP_PAIR.RSREQ,
  F.SP_PAIR.EN, F.SP_PAIR.PAIRXOR]
def R.SP_PSTAT : Reg := [F.SP_PSTAT.MATCHRUN, F.SP_PSTAT.NCAUSE, F.SP_PSTAT.SENIOR, F.SP_PSTAT.RESYNC,
  F.SP_PSTAT.LINK, F.SP_PSTAT.PELIG, F.SP_PSTAT.ELIG, F.SP_PSTAT.ROLE]
def R.SP_DIGCNT : Reg := [F.SP_DIGCNT.MISMATCH, F.SP_DIGCNT.VOID, F.SP_DIGCNT.MISSING, F.SP_DIGCNT.SWITCH]
def R.SP_TDLY : Reg := [F.SP_TDLY.DELAY]
def R.CE_CFG : Reg := [F.CE_CFG.WAITLIM]
def R.CE_STAT : Reg := [F.CE_STAT.EXEC, F.CE_STAT.WAIT, F.CE_STAT.HOFF, F.CE_STAT.LOCK, F.CE_STAT.PATCH]
def R.CE_COMMIT : Reg := [F.CE_COMMIT.TICKNO]
def R.CE_JLOG : Reg := [F.CE_JLOG.TOTAL, F.CE_JLOG.NEXT]
def R.CE_LEDG : Reg := [F.CE_LEDG.OPEN, F.CE_LEDG.KEPT]
def R.CE_PATCH : Reg := [F.CE_PATCH.PID, F.CE_PATCH.NWORDS]
def R.CE_CNT : Reg := [F.CE_CNT.BADOP, F.CE_CNT.BADARG, F.CE_CNT.WAITOUT, F.CE_CNT.LOCKDISC]
def R.HP_CTRL : Reg := [F.HP_CTRL.IRQOD, F.HP_CTRL.POISON, F.HP_CTRL.PCHK]
def R.HP_IRQEN : Reg := [F.HP_IRQEN.EN]
def R.HP_IRQSTAT : Reg := [F.HP_IRQSTAT.RAW, F.HP_IRQSTAT.PEND]
def R.HP_ERR : Reg := [F.HP_ERR.PARERR, F.HP_ERR.DISC, F.HP_ERR.VOID, F.HP_ERR.UNCORR]
def R.HP_DISCAP : Reg := [F.HP_DISCAP.CAUSE, F.HP_DISCAP.RD, F.HP_DISCAP.ADDR]
def R.HP_UCAP : Reg := [F.HP_UCAP.WORDS, F.HP_UCAP.ADDR]
def R.SYS_FAULT : Reg := [F.SYS_FAULT.PWR, F.SYS_FAULT.UNSERVED, F.SYS_FAULT.NOLANE, F.SYS_FAULT.CHIP]
def R.SYS_SYSADDR : Reg := [F.SYS_SYSADDR.SYSADDR]
def R.SYS_SCRATCH : Reg := [F.SYS_SCRATCH.SCRATCH]
def R.SYS_DEVID : Reg := [F.SYS_DEVID.VENDOR, F.SYS_DEVID.DEVICE]
def R.SYS_STEP : Reg := [F.SYS_STEP.ROMVER, F.SYS_STEP.STEPPING]
def R.SYS_SERIAL0 : Reg := [F.SYS_SERIAL0.SERLO]
def R.SYS_SERIAL1 : Reg := [F.SYS_SERIAL1.SERHI]
def R.SYS_STRAP : Reg := [F.SYS_STRAP.BOOTSEL, F.SYS_STRAP.PORTSTART, F.SYS_STRAP.SENIOR]
def R.SYS_RSTCAUSE : Reg := [F.SYS_RSTCAUSE.STROWS, F.SYS_RSTCAUSE.STFAIL, F.SYS_RSTCAUSE.QUICK,
  F.SYS_RSTCAUSE.THERMAL, F.SYS_RSTCAUSE.CLOCK, F.SYS_RSTCAUSE.PIN, F.SYS_RSTCAUSE.BROWNOUT, F.SYS_RSTCAUSE.POR]
def R.SYS_PLLSTAT : Reg := [F.SYS_PLLSTAT.TLOSS, F.SYS_PLLSTAT.TLOCK, F.SYS_PLLSTAT.TRUN, F.SYS_PLLSTAT.LOCK,
  F.SYS_PLLSTAT.LOCKUS]
def R.SYS_PWRDOM : Reg := [F.SYS_PWRDOM.PWRUP, F.SYS_PWRDOM.ON]
def R.SYS_TELCFG : Reg := [F.SYS_TELCFG.DROP, F.SYS_TELCFG.TWARN, F.SYS_TELCFG.PERIOD]
def R.SYS_TEMP (i : Nat) : Reg := [F.SYS_TEMP.EXCL i, F.SYS_TEMP.PEAK i, F.SYS_TEMP.TEMP i]
def R.SYS_VMON : Reg := [F.SYS_VMON.VAUX, F.SYS_VMON.VSD, F.SYS_VMON.VCORE]
def R.SYS_BUSLOAD (n : Nat) : Reg := [F.SYS_BUSLOAD.PEAK n, F.SYS_BUSLOAD.LOAD n]
def R.BK_FAULT (b : Nat) : Reg := [F.BK_FAULT.FAILED0 b, F.BK_FAULT.CAUSE0 b, F.BK_FAULT.FAILED1 b,
  F.BK_FAULT.CAUSE1 b, F.BK_FAULT.FAILED2 b, F.BK_FAULT.CAUSE2 b, F.BK_FAULT.FAILED3 b, F.BK_FAULT.CAUSE3 b,
  F.BK_FAULT.FAILED4 b, F.BK_FAULT.CAUSE4 b, F.BK_FAULT.FAILED5 b, F.BK_FAULT.CAUSE5 b, F.BK_FAULT.FAILED6 b,
  F.BK_FAULT.CAUSE6 b, F.BK_FAULT.FAILED7 b, F.BK_FAULT.CAUSE7 b, F.BK_FAULT.FAILED8 b, F.BK_FAULT.CAUSE8 b]
def R.BK_AGE (b : Nat) : Reg := [F.BK_AGE.MARGIN0 b, F.BK_AGE.MARGIN1 b, F.BK_AGE.MARGIN2 b, F.BK_AGE.MARGIN3 b,
  F.BK_AGE.MARGIN4 b, F.BK_AGE.MARGIN5 b, F.BK_AGE.MARGIN6 b, F.BK_AGE.MARGIN7 b, F.BK_AGE.MARGIN8 b]

/-- The SYS_ registers of the global page. -/
def regSys (a : Nat) : Option Reg :=
  if a = 0x10 then some R.SYS_FAULT
  else if a = 0x0 then some R.SYS_SYSADDR
  else if a = 0x1 then some R.SYS_SCRATCH
  else if a = 0x20 then some R.SYS_STRAP
  else if a = 0x21 then some R.SYS_RSTCAUSE
  else if a = 0x22 then some R.SYS_PLLSTAT
  else if a = 0x23 then some R.SYS_PWRDOM
  else none

/-- The GW_ registers. -/
def regGw (a : Nat) : Option Reg :=
  if a = 0x800 then some R.GW_HWCTRL
  else if a = 0x801 then some R.GW_HWSTAT
  else if a = 0x802 then some R.GW_MAPSTAT
  else if a = 0x803 then some R.GW_KNOTTOT
  else if a = 0x804 then some R.GW_ERR
  else if a = 0x805 then some R.GW_SATCNT
  else if a = 0x806 then some R.GW_DIGEST
  else if a = 0x807 then some R.GW_DIGTICK
  else if a = 0x808 then some R.GW_SWTICK
  else if a = 0x810 then some R.GW_PFSTAT
  else if a = 0x811 then some R.GW_PFCNT0
  else if a = 0x812 then some R.GW_PFCNT1
  else none

/-- The TK_ registers. -/
def regTk (a : Nat) : Option Reg :=
  if a = 0x1000 then some R.TK_CTRL
  else if a = 0x1001 then some R.TK_PERIOD
  else if a = 0x1002 then some R.TK_DL_CAPTURE
  else if a = 0x1003 then some R.TK_DL_MAP
  else if a = 0x1004 then some R.TK_DL_EMIT
  else if a = 0x1005 then some R.TK_REACT
  else if a = 0x1006 then some R.TK_SRC
  else if a = 0x1007 then some R.TK_HOPDLY
  else if a = 0x1008 then some R.TK_STATUS
  else if a = 0x1009 then some R.TK_TICKNO
  else if a = 0x100A then some R.TK_TIME_LO
  else if a = 0x100B then some R.TK_TIME_HI
  else if a = 0x100C then some R.TK_PHERR
  else if a = 0x100D then some R.TK_MISS
  else if a = 0x100e then some R.TK_DONE_CAPTURE
  else if a = 0x100f then some R.TK_DONE_MAP
  else if a = 0x1010 then some R.TK_DONE_EMIT
  else if a = 0x1011 then some R.TK_WORDERR
  else none

/-- The CE_ registers beside the queue ports. -/
def regCe (a : Nat) : Option Reg :=
  if a = 0x2018 then some R.CE_CFG
  else if a = 0x2019 then some R.CE_STAT
  else if a = 0x201A then some R.CE_COMMIT
  else if a = 0x201B then some R.CE_JLOG
  else if a = 0x201C then some R.CE_LEDG
  else if a = 0x201D then some R.CE_PATCH
  else if a = 0x201E then some R.CE_CNT
  else none

/-- The HP_ registers beside the queue ports. -/
def regHp (a : Nat) : Option Reg :=
  if a = 0x3100 then some R.HP_CTRL
  else if a = 0x3101 then some R.HP_IRQEN
  else if a = 0x3102 then some R.HP_IRQSTAT
  else if a = 0x3103 then some R.HP_ERR
  else if a = 0x3104 then some R.HP_DISCAP
  else if a = 0x3105 then some R.HP_UCAP
  else none

/-- The SB_ control registers. -/
def regSb (a : Nat) : Option Reg :=
  if a = 0x80800 then some R.SB_CTRL
  else if a = 0x80803 then some R.SB_OPEN
  else if a = 0x80801 then some R.SB_CNT0
  else if a = 0x80802 then some R.SB_CNT1
  else if a = 0x80804 then some R.SB_DPLOG
  else if a = 0x80805 then some R.SB_LELOG
  else none

/-- The SP_ registers. -/
def regSp (a : Nat) : Option Reg :=
  if a = 0x90000 then some R.SP_ENGINE
  else if a = 0x90001 then some R.SP_LANE
  else if a = 0x90002 then some R.SP_SCRUB
  else if a = 0x90003 then some R.SP_ROWCFG
  else if a = 0x90004 then some R.SP_CROWS
  else if a = 0x90005 then some R.SP_LEASE
  else if a = 0x90006 then some R.SP_LEDGER
  else if a = 0x90010 then some R.SP_PAIR
  else if a = 0x90011 then some R.SP_PSTAT
  else if a = 0x90012 then some R.SP_DIGCNT
  else if a = 0x90013 then some R.SP_TDLY
  else none

/-- The identification page. -/
def regId (a : Nat) : Option Reg :=
  if a = 0xF0000 then some R.SYS_DEVID
  else if a = 0xF0001 then some R.SYS_STEP
  else if a = 0xF0002 then some R.SYS_SERIAL0
  else if a = 0xF0003 then some R.SYS_SERIAL1
  else none

/-- The registers of a cell page by offset. -/
def regCell (c o : Nat) : Option Reg :=
  if o = 0x10 then some (R.CL_NATIVE c)
  else if o = 0x11 then some (R.CL_BEACON c)
  else if o = 0x12 then some (R.CL_BCNSTAT c)
  else if o = 0x13 then some (R.CL_NATCNT c)
  else if o = 0x14 then some (R.CL_BANDLOG c)
  else if o = 0x18 then some (R.CL_COMPAT c)
  else if o = 0x19 then some (R.CL_COMPCNT c)
  else if o = 0x20 then some (R.CL_NBT c)
  else if o = 0x21 then some (R.CL_DBT c)
  else if o = 0x22 then some (R.CL_TDC c)
  else if o = 0x23 then some (R.CL_TDCSTAT c)
  else if o = 0x24 then some (R.CL_ARCTRL c)
  else if o = 0x25 then some (R.CL_ARSTAT c)
  else if o = 0x0 then some (R.CL_STATUS c)
  else if o = 0x1 then some (R.CL_OPMODE c)
  else if o = 0x2 then some (R.CL_ERRCTRL c)
  else if o = 0x3 then some (R.CL_ECNT c)
  else if o = 0x4 then some (R.CL_ERRCAP c)
  else if o = 0x5 then some (R.CL_ERRCNTA c)
  else if o = 0x6 then some (R.CL_ERRCNTB c)
  else if o = 0x7 then some (R.CL_SOLO c)
  else if o = 0x8 then some (R.CL_CLASHCTL c)
  else if o = 0x9 then some (R.CL_CLASHLOG0 c)
  else if o = 0xa then some (R.CL_CLASHLOG1 c)
  else if o = 0x50 then some (R.CL_FILTCNT c)
  else if o = 0x51 then some (R.CL_TXSTAT c)
  else if 0x30 ≤ o && o < 0x50 then
    if o % 2 = 0 then some (R.CL_ARCANDN c ((o - 0x30) / 2)) else some (R.CL_ARCANDD c ((o - 0x30) / 2))
  else if 0x52 ≤ o && o < 0x56 then some (R.CL_TXPEND c (o - 0x52))
  else none

/-- The BK_ registers of a block page by offset. -/
def regBlock (b o : Nat) : Option Reg :=
  if o = 0x0 then some (R.BK_PINMUX b)
  else if o = 0x1 then some (R.BK_DLMISS b)
  else if o = 0x11 then some (R.BK_MCFG b)
  else if o = 0x12 then some (R.BK_MCHK b)
  else if o = 0x13 then some (R.BK_ECC b)
  else if o = 0x14 then some (R.BK_ROWS b)
  else if o = 0x10 then some (R.BK_FAULT b)
  else if o = 0x15 then some (R.BK_AGE b)
  else none

/-- The PW_ registers of a port page by offset. -/
def regPort (n o : Nat) : Option Reg :=
  if o = 0x0 then some (R.PW_PCFG n)
  else if o = 0x1 then some (R.PW_WCFG n)
  else if o = 0x2 then some (R.PW_WTIMER n)
  else if o = 0x3 then some (R.PW_WTICK n)
  else if o = 0x4 then some (R.PW_PSTAT n)
  else if o = 0x5 then some (R.PW_GSLEEP n)
  else if o = 0x6 then some (R.PW_PCNT n)
  else none

/-- The SB_ registers of a splice window by offset. -/
def regWindow (w o : Nat) : Option Reg :=
  if o = 0x0 then some (R.SB_WCFG w)
  else if o = 0x1 then some (R.SB_WBASE w)
  else if o = 0x2 then some (R.SB_WRANGE w)
  else if o = 0x3 then some (R.SB_WPOLL w)
  else if o = 0x4 then some (R.SB_WSTAT w)
  else if o = 0x5 then some (R.SB_WPF w)
  else if o = 0x6 then some (R.SB_WPOLLV w)
  else none

/-- The stored registers of a queue by offset; QDATA and QPUSH2 are ports, not registers. -/
def regQueue (q o : Nat) : Option Reg :=
  if o = 0x2 then some (R.QWM q)
  else if o = 0x3 then some (R.QCFG q)
  else if o = 0x4 then some (R.QCTL q)
  else if o = 0x5 then some (R.QSTAT q)
  else if o = 0x6 then some (R.QMON q)
  else if o = 0x7 then some (R.QCNT q)
  else none

/-- The dwords of a selective-wake filter by offset (Table 12-9g). -/
def regFilter (n f o : Nat) : Option Reg :=
  match o with
  | 0 => some (R.PW_SWFID n f)
  | 1 => some (R.PW_SWFIM n f)
  | 2 => some (R.PW_SWFPV0 n f)
  | 3 => some (R.PW_SWFPV1 n f)
  | 4 => some (R.PW_SWFPM0 n f)
  | 5 => some (R.PW_SWFPM1 n f)
  | _ => none

/-- What a dword address names (Table 16-1, Table 16-2, Table 16-7). -/
inductive Target
  | reg (r : Reg)              -- a register of the register file
  | cellReg (c : Nat) (r : Reg)  -- a register of a cell page
  | blockReg (b : Nat) (r : Reg) -- a register of a block page
  | qData (q : Nat) | qPush2 (q : Nat)
  | blockRam (b i : Nat) | captured (i : Nat) | emit (i : Nat) | knot (i : Nat)
  | scale (i : Nat) | binding (i : Nat) | policy (i : Nat)
  | journal (i : Nat) | dpLog (i : Nat) | leLog (i : Nat) | ledgerWin (i : Nat)
  | wakeLog (i : Nat) | kaLog (i : Nat) | prefetch (w j : Nat)
  | reserved                   -- a reserved dword inside a range
  | offCell (c : Nat) | offBlock (b : Nat)  -- a reserved dword of a cell or block page
  | unmapped

/-- A register, or the reserved dword where none is. -/
def Target.ofReg : Option Reg → Target
  | some r => .reg r
  | none => .reserved

/-- The queue port a queue register address names. -/
def Target.ofQueue (q o : Nat) : Target :=
  if o = 0 then .qData q else if o = 1 then .qPush2 q else Target.ofReg (regQueue q o)

/-- The target of a dword address: all 20 bits are decoded and no address aliases another (R436). -/
def targetOf (a : Nat) : Target :=
  if a < 0x800 then .ofReg (regSys a)
  else if a < 0xC00 then .ofReg (regGw a)
  else if a < 0x1000 then .reg (R.GW_LISTHEAD (a - 0xC00))
  else if a < 0x2000 then .ofReg (regTk a)
  else if a < 0x3000 then
    if a < 0x2018 then .ofQueue (0x210 + (a - 0x2000) / 8) (a % 8) else .ofReg (regCe a)
  else if a < 0x4000 then
    if a < 0x3020 then .ofQueue (0x200 + (a - 0x3000) / 8) (a % 8) else .ofReg (regHp a)
  else if a < 0x8000 then
    if a < 0x4600 then .ofReg (regPort ((a - 0x4000) / 16) (a % 16))
    else if a < 0x4800 then
      if a = 0x4600 then .reg R.PW_NPRI else if a = 0x4601 then .reg R.PW_WLOG
      else if a = 0x4602 then .reg R.PW_KALOG else .reserved
    else if a < 0x5400 then .reg (R.PW_GRP ((a - 0x4800) / 32) (a % 32))
    else if a < 0x5800 then .reserved
    else if a < 0x7000 then .ofReg (regFilter ((a - 0x5800) / 64) ((a - 0x5800) % 64 / 8) (a % 8))
    else if a < 0x7100 then .wakeLog (a - 0x7000)
    else if a < 0x7140 then .kaLog (a - 0x7100)
    else .reserved
  else if a < 0x10000 then .unmapped
  else if a < 0x1D800 then
    let c := (a - 0x10000) / 0x200
    match regCell c (a % 0x200) with
    | some r => .cellReg c r
    | none => .offCell c
  else if a < 0x1E000 then .unmapped
  else if a < 0x1EC00 then
    let b := (a - 0x1E000) / 0x100
    let o := a % 0x100
    if 0x28 ≤ o && o < 0x28 + 9 * 0x18 then
      let k := (o - 0x28) / 0x18
      let q := (o - 0x28) % 0x18 / 8
      match Target.ofQueue (4 * (b * 9 + k) + q) ((o - 0x28) % 8) with
      | .reg r => .blockReg b r
      | t => t
    else match regBlock b o with
      | some r => .blockReg b r
      | none => .offBlock b
  else if a < 0x1F000 then .unmapped
  else if a < 0x1F400 then
    if a % 0x100 = 0 then .reg (R.RG_DLMISS ((a - 0x1F000) / 0x100)) else .reserved
  else if a < 0x20000 then .unmapped
  else if a < 0x50000 then .blockRam ((a - 0x20000) / 0x4000) (a % 0x4000)
  else if a < 0x58000 then .captured (a - 0x50000)
  else if a < 0x60000 then .emit (a - 0x58000)
  else if a < 0x80000 then .knot (a - 0x60000)
  else if a < 0x81000 then
    if a < 0x80080 then .ofReg (regWindow ((a - 0x80000) / 8) (a % 8))
    else if 0x80200 ≤ a && a < 0x80260 then .reg (R.SB_PBUF (a - 0x80200))
    else if 0x80400 ≤ a && a < 0x80500 then .prefetch ((a - 0x80400) / 16) (a % 16)
    else .ofReg (regSb a)
  else if a < 0x90000 then .unmapped
  else if a < 0x90800 then
    if 0x90100 ≤ a && a < 0x90180 then .ledgerWin (a - 0x90100) else .ofReg (regSp a)
  else if a < 0x91000 then
    if a = 0x90800 then .reg R.SYS_TELCFG
    else if a < 0x90805 then .reg (R.SYS_TEMP (a - 0x90801))
    else if a = 0x90805 then .reg R.SYS_VMON
    else if 0x90840 ≤ a && a < 0x908A0 then .reg (R.SYS_BUSLOAD (a - 0x90840))
    else .reserved
  else if a < 0xA0000 then .unmapped
  else if a < 0xA4000 then .journal (a - 0xA0000)
  else if a < 0xA8000 then .unmapped
  else if a < 0xA8100 then .dpLog (a - 0xA8000)
  else if a < 0xA8200 then .leLog (a - 0xA8100)
  else if a < 0xB0000 then .unmapped
  else if a < 0xB2000 then .scale (a - 0xB0000)
  else if a < 0xB5000 then .binding (a - 0xB2000)
  else if a < 0xB6000 then .unmapped
  else if a < 0xB6300 then .policy (a - 0xB6000)
  else if a < 0xF0000 then .unmapped
  else if a < 0xF1000 then .ofReg (regId a)
  else .unmapped

end Sys2Proof.Machine
end

