-- ==== Sys2Proof/Machine/State.lean ====
section
/-! DEFINITION. The state of the BX9612 as plain data, and the state after reset.
Registers stand in `regs` (live values) and `stage` (staging copies), one entry per field, under the field's key;
the rest of the file is the state that the spec gives the units beside their registers. -/

namespace Sys2Proof.Machine

/-- Why a step stops with a fault. -/
inductive Fault
  /-- Raised by the command-packet rows and by STREAM_ITEM: a packet of more than 63 argument words, or more than 63
  result words. No such packet or item exists (R387), so the stop is safe. -/
  | illFormed
  deriving DecidableEq, Repr

/-- Why a step refuses a command. -/
inductive Refusal
  /-- Raised by an arm of `exec` whose command has no meaning yet; safe. -/
  | notModelled (mnemonic : String)
  deriving DecidableEq, Repr

/-- A word in a queue: its END mark (R227; kept in every class, since the device tracks every packet boundary) and, where
it is uncorrectable (R230), the key of its RAM word. -/
structure QWord where
  word : Word
  last : Bool
  bad : Option Nat := none
  deriving DecidableEq, Repr

/-- The words of one queue (R218, R222, R224). -/
structure Queue where
  /-- committed words not yet popped, oldest first -/
  vis : List QWord := []
  /-- words of the packet the producer has open; a packet of which the consumer has popped a part stands in `vis`
  with its remaining words, so that QUEUE_DROP of the first packet is R232's in either case -/
  opened : List QWord := []
  /-- the rest of a rewound packet is being discarded (R224) -/
  discarding : Bool := false
  /-- packets that the unit bound to a bulk queue pushes one word per clk: the clk of the next word, and the words left
  (R222, R231) -/
  coming : List (Nat × List QWord) := []
  /-- clk of the watermark comparisons still to make, in order (R234) -/
  due : List Nat := []
  deriving DecidableEq, Repr

/-- An event record that a unit has posted to the merger (R392, R220). -/
structure EventRec where
  cls : Nat
  code : Nat
  time : Nat
  /-- rank among records of one clk: level, unit (R220) -/
  level : Nat
  unit : Nat
  body : List Nat
  deriving DecidableEq, Repr

/-- The event merger (R220, R392). -/
structure Merger where
  posted : List EventRec := []
  lost : Nat := 0
  firstLost : Nat := 0
  evseq : Nat := 0
  deriving DecidableEq, Repr

/-- An entry of the in-flight ledger (R404, Table 14-11). -/
structure LedgerEntry where
  seq : Nat
  state : Nat
  k : Nat
  n : Nat
  status : Nat
  track : Bool
  partner : Bool
  /-- completions so far when this entry completed: the age that R405 frees by -/
  age : Nat
  /-- the active device of a pair has forwarded the command (Table 13-8) -/
  carried : Bool := false
  deriving DecidableEq, Repr

/-- A command that the engine has popped and that waits under Table 14-9 (R393). -/
structure WaitingCmd where
  opcode : Nat
  pkt : Packet
  slot : Nat
  boundaries : Nat
  deriving DecidableEq, Repr

/-- A handed-off command (R394): open until `ended`, then waiting for its reply. -/
structure Handoff where
  opcode : Nat
  seq : Nat
  quiet : Bool
  len : Nat
  args : List Word
  src : Source
  slot : Nat
  /-- the unit's number for the command: remote command index, or a packed unit -/
  tag : Nat
  ended : Option (Nat × List Nat)
  deriving DecidableEq, Repr

/-- A command packet rewound after words 0 and 1 landed (R225): OPCODE, SEQ, STATUS of the reply owed. -/
structure Rewound where
  opcode : Nat
  seq : Nat
  status : Nat
  deriving DecidableEq, Repr

/-- A commit that waits for its boundary (R396, R398). -/
structure PendingCommit where
  seq : Nat
  slot : Nat
  /-- boundaries still to pass before the one that makes it live (R375) -/
  skip : Nat
  /-- ledger slots of further COMMITs that completed during the lock (R398, R404) -/
  others : List Nat := []
  deriving DecidableEq, Repr

/-- The command engine (chapter 14). -/
structure Engine where
  waiting : Option WaitingCmd := none
  /-- command packets that the engine has still to take, oldest first: opcode, packet, and the tick with which the tether
  tagged it (R375, R393) -/
  behind : List (Nat × Packet × Nat) := []
  handoffs : List Handoff := []
  rewound : List Rewound := []
  ledger : Sparse LedgerEntry := []
  completions : Nat := 0
  commit : Option PendingCommit := none
  /-- a COMMIT of the boundary clk in which another one goes live (R44) -/
  next : Option PendingCommit := none
  journal : Sparse (List Nat) := []
  patch : Sparse Word := []
  deriving DecidableEq, Repr

/-- The tick unit beside its registers (chapter 2). -/
structure TickUnit where
  /-- device time (R41), 54 bits as `State.now` reads it -/
  time : Nat := 0
  /-- the model's own count of clk since READY, which no slew clk and no step changes (R9, R56) -/
  clk : Nat := 0
  /-- B(n) (R42), and the clk of the boundary -/
  boundary : Nat := 0
  boundaryClk : Nat := 0
  /-- device time of the first clk at or past the next boundary, once it has come (R42) -/
  crossed : Option Nat := none
  /-- P of tick n, as live at its boundary -/
  period : Nat := 50000
  /-- first clk, as the model counts them, in which the phase now running may complete (R45, R55, R242) -/
  phaseFrom : Nat := 1
  /-- the tick close of this tick has finished (R49) -/
  closeDone : Bool := false
  /-- SKIP stopped MAP before it started (R52) -/
  mapSkipped : Bool := false
  /-- chip-level misses already counted in this tick (R55) -/
  missCap : Bool := false
  missMap : Bool := false
  missEmit : Bool := false
  /-- EMIT scope of HOLD: ports whose transfers EMIT does not make in this tick (R52), and in the tick that opens next -/
  holdPorts : List Nat := []
  holdNext : List Nat := []
  /-- slew clks still to make for the last phase error, signed, the clk by which they are made, the rate correction
  that has added up, in 2^-24 clk, and the clk of the last slew (R56, R59) -/
  slew : Int := 0
  slewBy : Nat := 0
  rateAcc : Int := 0
  lastSlew : Nat := 0
  /-- consecutive references within 10 clk (Table 2-7) -/
  good : Nat := 0
  /-- ticks spent in HOLDOVER -/
  holdTicks : Nat := 0
  /-- the period adopted from the source, if any (R59, R61) -/
  adopted : Option Nat := none
  /-- clk of the last valid reference, or of the entry into ACQUIRE -/
  lastRef : Nat := 0
  /-- the boundary at which a step makes the next tick begin, in the new device time (R62) -/
  stepTo : Option Nat := none
  /-- the tick word of the present tick (R66) -/
  tickWord : List Bool := []
  deriving DecidableEq, Repr

/-- The writes of an issued knot that have not been made (R256): lane, issue clk, the writes as word index, bits
written and their values, and the target and result that the digest takes (R259). -/
structure KnotWriteRec where
  lane : Nat
  clk : Nat
  writes : List (Nat × Nat × Nat)
  target : Nat
  result : Nat
  deriving DecidableEq, Repr

/-- A list that a lane has still to run: the clk of its stage's start, list number, head, COUNT (R255). -/
structure ListRun where
  start : Nat
  list : Nat
  head : Nat
  count : Nat
  deriving DecidableEq, Repr

/-- A knot lane in MAP (R255, R259). -/
structure Lane where
  todo : List ListRun := []
  /-- the list running, its next knot and the knots it may still run -/
  cur : Option (Nat × Nat × Nat) := none
  /-- first clk in which the lane may issue -/
  clk : Nat := 0
  crc : Nat := 0xB704CE
  /-- no engine serves the lane, or its engine has failed in this MAP (R355, R356) -/
  dead : Bool := false
  /-- the lane has issued a knot in this MAP (R357) -/
  ran : Bool := false
  deriving DecidableEq, Repr

/-- One entry of the host-write list (R241): dword index, word enables, data. -/
structure HostWrite where
  index : Nat
  we : Nat
  data : Dword
  deriving DecidableEq, Repr

/-- The gateway beside its registers (chapter 9). -/
structure Gateway where
  collecting : List HostWrite := []
  /-- host writes of a boundary clk whose boundary has not been made yet: they enter the new collecting list (R242) -/
  late : List HostWrite := []
  /-- entries still to apply, and the clk of the first of them (R242) -/
  applying : List HostWrite := []
  applyAt : Nat := 0
  lanes : Sparse Lane := []
  inflight : List KnotWriteRec := []
  /-- the first clk of MAP -/
  mapStart : Nat := 0
  /-- the clk in which the last knot issued, once one has (R255) -/
  lastIssue : Option Nat := none
  /-- emit dwords that a knot or a host write has written on a standby: in this tick (R240), and since a
  resynchronization marks them, from the first boundary after its start on (R378) -/
  wrote : List Nat := []
  marked : List Nat := []
  marking : Bool := false
  digestVoid : Bool := false
  /-- lane shadowed in this MAP by the spare, whether a result differed (R357) -/
  shadow : Option Nat := none
  differed : Bool := false
  /-- lane L and pass of Table 13-4 -/
  suspect : Option (Nat × Nat) := none
  deriving DecidableEq, Repr

/-- A frame as a cell decodes it: the three header words of Table 7-4 (native) or Table 4-2 (compatibility), the
payload words, and the CRC field that R346 compares. -/
structure BusFrame where
  h1 : Nat
  h2 : Nat
  h3 : Nat
  payload : List Nat
  crc : Nat
  deriving DecidableEq, Repr

/-- Where a transmitted frame comes from (R202, R330, R94). -/
inductive TxSource
  | buffer (d : Nat)
  | tq
  | network
  | beacon
  deriving DecidableEq, Repr

/-- A frame that a cell holds for transmission: its source and its record words 0 onward (Table 7-3). -/
structure TxFrame where
  src : TxSource
  words : List Word
  deriving DecidableEq, Repr

/-- The attempt on the bus (R203): the frame, its SOF device time, the bits as sent (R81, R82). -/
structure Attempt where
  frame : TxFrame
  sof : Nat
  bits : List Bool
  /-- a BUFFER_SET withdrew the buffer with cause 0x0 while the attempt was on the bus (R207) -/
  orphan : Bool
  deriving DecidableEq, Repr

/-- Where the first matching filter sends a frame (R189). -/
inductive Dest
  | buffer (d : Nat)
  | queue (q : Nat)
  deriving DecidableEq, Repr

/-- A frame that became valid and waits for its store or push (R190, R191). -/
structure DueStore where
  dest : Dest
  record : List Word
  deriving DecidableEq, Repr

/-- A store between its claim and its close (R191): buffer, whether the target is the non-current copy, record. -/
structure OpenStore where
  buf : Nat
  shadow : Bool
  base : Nat
  record : List Word
  /-- a BUFFER_SET for the buffer has gone live since the claim (R209) -/
  stale : Bool := false
  deriving DecidableEq, Repr

/-- An entry of the clash memory (R167). -/
structure ClashEntry where
  pri : Nat
  kind : Nat
  org : Nat
  digest : Nat
  deriving DecidableEq, Repr

/-- A valid beacon as a port keeps it (R96 to R98, R281). -/
structure Beacon where
  sof : Nat
  tickNo : Nat
  period : Nat
  org : Nat
  band : Nat
  win : Nat
  deriving DecidableEq, Repr

/-- A cell beside its registers (chapters 3 to 7). -/
structure Cell where
  attempt : Option Attempt := none
  ready : Option TxFrame := none
  /-- the frame being received: its SOF timestamp -/
  rxSof : Option Nat := none
  due : List DueStore := []
  store : Option OpenStore := none
  fetch : Option TxSource := none
  /-- a packet that the cell has begun to push: queue and last word (R220, R222) -/
  pushing : Option (Nat × Word) := none
  clash : List ClashEntry := []
  clashSeen : List (Nat × Nat) := []
  /-- consecutive own bit errors in the control or data field, by buffer (R169) -/
  clashRun : Sparse Nat := []
  /-- the cell's own beacon is ready and unsent; it has been made ready in this tick, or withdrawn (R94) -/
  beaconReady : Bool := false
  beaconDone : Bool := false
  /-- the last valid beacon, and whether window and guard are suspended (R97) -/
  lastBeacon : Option Beacon := none
  suspended : Bool := false
  /-- misses counted since the last valid beacon (R97) -/
  beaconMisses : Nat := 0
  /-- the window opened by the last beacon closes at this device time (R98) -/
  windowEnd : Nat := 0
  /-- the first band violation of the tick: ORG, PRI, device time (R100, R392) -/
  bandFirst : Option (Nat × Nat × Nat) := none
  bandCount : Nat := 0
  /-- the band check of the frame being received has been made (R100) -/
  bandSeen : Bool := false
  /-- an attempt has been made in this tick under PACE TICK (Table 6-8) -/
  paced : Bool := false
  /-- boundaries counted toward DELAY (R158) -/
  recDelay : Nat := 0
  /-- the clk in which recovery counting begins, until the device has found it past (R158) -/
  countAt : Option Nat := none
  /-- the last frame on the bus was the cell's own: IFS follows it (R162) -/
  sentLast : Bool := false
  /-- a listen-mode cell has resynchronized: the bits that follow are IFS (R163) -/
  resynced : Bool := false
  /-- clk of the last entry into BUS_OFF (R160) -/
  offAt : Nat := 0
  /-- a listen-mode cell that stopped decoding after an error (R163) -/
  stopped : Bool := false
  /-- boundaries of the present measurement or trial, and candidates still to try in the pass (R145 to R147) -/
  arDwell : Nat := 0
  arLeft : List Nat := []
  /-- HARD cause: the cell is isolated (R344, R350) -/
  isolated : Bool := false
  /-- overload frame or error flag now driven: none, or its six bits (R90, R109) -/
  flag : List Bool := []
  /-- the cell was the transmitter when it started that flag -/
  flagTx : Bool := false
  /-- that flag is of an overload frame -/
  flagOvl : Bool := false
  deriving DecidableEq, Repr

/-- A network frame in the device's network slot (R330): PRI and payload. -/
structure NetFrame where
  pri : Nat
  payload : List Word
  deriving DecidableEq, Repr

/-- A sleep round of a port beside PW_PSTAT (R331 to R334). -/
structure Round where
  coord : Nat
  agree : List Nat := []
  /-- boundaries left of the vote window; `none` until the proposal is valid -/
  window : Option Nat := none
  /-- boundaries left to sleep entry, once committed -/
  sdly : Option Nat := none
  deriving DecidableEq, Repr

/-- A wake source held between commit and sleep entry: SRC, FILT, origin (R334). -/
structure HeldWake where
  src : Nat
  filt : Nat
  origin : Nat
  deriving DecidableEq, Repr

/-- An EMIT transfer that has claimed S0, as its descriptor stood at the claim (R204): buffer, record, area. -/
structure OpenXfer where
  buf : Nat
  base : Nat
  img : Nat
  xlen : Nat
  deriving DecidableEq, Repr

/-- A wake that the next clk decides: that clk, its device time, the GROUP whose bit it clears (0x3F: the port wakes), and
the held source (R334). -/
structure Rewake where
  at' : Nat
  time : Nat
  group : Nat
  held : HeldWake
  deriving DecidableEq, Repr

/-- A round that the device has aborted on its side (R333): its ROUND and GROUP, the cause (Table 12-5) and the source of the
abort with its FILT and origin, the clk of the abort, the round as it stood, and what the abort has changed beside it:
PW_PCNT.ABORTS, the keep-awake log's NEXT and TOTAL, and the record that stood there (R340). -/
structure Aborted where
  number : Nat
  group : Nat
  cause : Nat
  src : HeldWake
  at' : Nat
  saved : Round
  aborts : Nat := 0
  next : Nat := 0
  total : Nat := 0
  record : List Nat := []
  deriving DecidableEq, Repr

/-- A wake under way (R321, R328): SRC, the clk from which LMDLY counts, the clk of the decision, its wake log entry,
and the power state before. -/
structure Waking where
  src : Nat
  base : Nat
  at' : Nat
  entry : Nat
  prev : Nat
  deriving DecidableEq, Repr

/-- The bus-pattern detector of an umbra decoder (R324): phases seen, the clk in which the first one completed, the level
of RXD (`true`: recessive) and for how many clk it has been held. -/
structure BusPattern where
  phases : Nat := 0
  first : Nat := 0
  level : Bool := true
  run : Nat := 0
  deriving DecidableEq, Repr

/-- A port beside its registers (chapters 1, 7, 11, 12). -/
structure Port where
  /-- pending transmit buffers (R200), and those started in this tick (R206) -/
  pend : List Nat := []
  started : List Nat := []
  /-- receive buffers with a store since the boundary (R197), and those that CAPTURE has still to transfer -/
  stored : List Nat := []
  listed : List Nat := []
  /-- buffers whose EMIT transfer is still to claim S0 in this tick -/
  emitDue : List Nat := []
  /-- buffers with RELMODE 1 whose transfer HOLD has dropped: released when EMIT ends (R201) -/
  emitHeld : List Nat := []
  /-- buffers with RELMODE 2 whose release time is still to come in this tick -/
  relDue : List Nat := []
  /-- the EMIT transfer that has claimed S0, and whether the boundary has passed since (R201, R204) -/
  xferOpen : Option OpenXfer := none
  xferCut : Bool := false
  /-- payloads that EMIT transfers have left in a buffer, newest first, with the device time of each (R278) -/
  emitted : Sparse (List (Nat × List Nat)) := []
  /-- suspended buffers (R171) -/
  susp : List Nat := []
  /-- changes that wait for a frame boundary (R478) -/
  timingChange : Bool := false
  powerNext : Option Nat := none
  roleChange : Bool := false
  routeNext : Option Nat := none
  /-- the mode and test mode as they stand on the bus (R123, R142) -/
  busProto : Nat := 0
  busTest : Nat := 0
  /-- timing (CL_NBT fields packed) and mode copy of the umbra decoder (R319) -/
  umbra : Option (Nat × Nat) := none
  /-- the bus-pattern detector (R324) -/
  pattern : BusPattern := {}
  /-- pins: P<n>_LM; the clk from which the device drives P<n>_WAKE low; the clk in which it last released it -/
  lm : Nat := 3
  wakeDrive : Option Nat := none
  wakeOff : Option Nat := none
  /-- a wake is under way (R321) -/
  waking : Option Waking := none
  /-- a WAKE frame is owed once the cell has integrated: its SRC (R335) -/
  sendWake : Option Nat := none
  /-- the network slot, and network frames that wait for it (R330) -/
  net : Option NetFrame := none
  netWait : List NetFrame := []
  round : Option Round := none
  held : Option HeldWake := none
  aborted : Option Aborted := none
  /-- a wake that the next clk decides (R334), and the group whose bit a sleep entry has set last, with its clk (R340) -/
  rewake : Option Rewake := none
  groupSlept : Option (Nat × Nat) := none
  /-- NET_SLEEP on a compatibility port: boundaries to its sleep, the one that it sleeps at included (R336, R340) -/
  sleepIn : Nat := 0
  /-- the power change that waits is a sleep entry of a round (R333) -/
  roundSleep : Bool := false
  /-- clk of sleep entry, and whether a round brought it (R322, R334) -/
  sleptAt : Nat := 0
  roundSlept : Bool := false
  /-- valid beacons, newest first (R281) -/
  beacons : List Beacon := []
  /-- bus busy since this clk, and busy clk of the tick (R453) -/
  busySince : Option Nat := none
  busyAcc : Nat := 0
  /-- the port was asleep for a part of this tick (R453) -/
  sleptTick : Bool := true
  /-- the block sends an isolation flag on the port up to this clk (R350) -/
  isolation : Option Nat := none
  /-- the splice bridge's outbound queue (whether a remote command's, PRI,
  payload) and its reply queue (PRI, payload) (R289, R293, R309) -/
  outq : List (Bool × Nat × List Word) := []
  inq : List (Nat × List Word) := []
  /-- lock: origin, window, clk of the lease's end once held (R305, R306) -/
  lock : Option (Nat × Nat × Option Nat) := none
  /-- the clk of the close of each service frame that the bridge has not read yet (R290) -/
  service : List Nat := []
  deriving DecidableEq, Repr

/-- A takeover in progress (R351): slot of the failed cell, whether its cause is HARD, and TEC, REC and RECOV of its status
mirror as they stood at the decision. -/
structure Takeover where
  slot : Nat
  hard : Bool
  tec : Nat
  recv : Nat
  recov : Nat
  deriving DecidableEq, Repr

/-- A block beside its registers (chapters 1 and 13). -/
structure Block where
  /-- the takeover for which the mirror cell loads or waits for its frame boundary -/
  takeover : Option Takeover := none
  /-- SPARE_RETURN in progress: its slot, and whether the self-test has passed (Table 13-3) -/
  returning : Option (Nat × Bool) := none
  /-- disagreement count of each port index (R347) -/
  dis : Sparse Nat := []
  /-- the disagreeing ports of each of the last eight listen ticks, newest first (R348) -/
  recent : List (List Nat) := []
  /-- ports with a frame compared and with a disagreement since the last evaluation -/
  compared : List Nat := []
  disagreed : List Nat := []
  /-- the frames that the serving cell of the listened port has reported and the mirror cell has decoded, with their SOF
  timestamps and the clk in which they came, that are not paired yet, and the device time from which frames are in scope
  (R346) -/
  reports : List (BusFrame × Nat × Nat) := []
  heard : List (BusFrame × Nat × Nat) := []
  since : Nat := 0
  /-- port index to which the mirror moves at its frame boundary, and the last port index of the rotation -/
  moveTo : Option Nat := none
  lastPort : Nat := 7
  /-- slots whose low margin has been reported (R363) -/
  ageLow : List Nat := []
  /-- ports of the block that no cell serves (R349) -/
  unserved : List Nat := []
  /-- slot that port A granted last, and the clk of the last host access to the block's RAM (R23) -/
  lastGrant : Nat := 8
  hostAt : Option Nat := none
  deriving DecidableEq, Repr

/-- The state of one condition of a binding on one channel, or of the node (R270). -/
structure Cond where
  code : Nat
  chan : Nat
  active : Bool
  absent : Nat
  deriving DecidableEq, Repr

/-- An open HART transaction (R283): channel, HTAG, clk of expiry. -/
structure Hart where
  chan : Nat
  htag : Nat
  expires : Nat
  deriving DecidableEq, Repr

/-- A profile area as CAPTURE is to write it, with the values that its writing leaves (R276). -/
structure AreaDue where
  words : List Nat
  held : Sparse Nat
  prevV : Sparse Nat
  prevQ : Sparse Nat
  deriving DecidableEq, Repr

/-- A profile binding beside its entry (chapter 10). -/
structure Bind where
  conds : List Cond := []
  held : Sparse Nat := []
  prevV : Sparse Nat := []
  prevQ : Sparse Nat := []
  /-- newest report since the boundary: value and quality by channel -/
  newest : Option (List (Nat × Nat)) := none
  lastCmd : Sparse Nat := []
  devCount : Sparse Nat := []
  edges : Nat := 0
  modeAck : Nat := 0
  mdRefused : List Nat := []
  /-- action code of each channel when CAPTURE completed (R277) -/
  actions : Sparse Nat := []
  /-- its last report closed by the boundary clk and is not evaluated yet (R280) -/
  owed : Bool := false
  /-- the area that CAPTURE of this tick has still to write -/
  area : Option AreaDue := none
  /-- the stores into HRBUF that the engine has not read, by the clk of their close, oldest first (R284) -/
  unread : List Nat := []
  hart : Option Hart := none
  deriving DecidableEq, Repr

/-- The settings of a splice window that a transaction goes by (R294, R300, R303, R312). -/
structure WinSet where
  port : Nat
  org : Nat
  base : Nat
  lane : Nat
  pri : Nat
  nose : Bool
  deriving DecidableEq, Repr

/-- What a bridge transaction serves (R292). -/
inductive TxnKind | command (i : Nat) | prefetch | poll
  deriving DecidableEq, Repr

/-- An entry of the outbound transaction table (R292, R293): `expires` is a clk. -/
structure Txn where
  kind : TxnKind
  window : Nat
  set : WinSet
  func : Nat
  addr : Nat
  count : Nat
  seq : Nat
  expires : Nat
  quarantine : Bool
  tick : Nat
  /-- the splice set of the window has not changed since the transaction was issued -/
  sameSet : Bool
  deriving DecidableEq, Repr

/-- A remote command at the bridge (R298, R299), with the settings of its window at its acceptance. -/
structure RemoteCmd where
  opcode : Nat
  window : Nat
  set : WinSet
  ofs : Nat
  count : Nat
  seq : Nat
  done : Nat
  closed : Nat
  data : List Word
  /-- the data still to write, or the requested lease -/
  wdata : List Word
  /-- a read that waits for the prefetch run in flight (R301) -/
  waitsRun : Bool
  /-- the splice set of the window has not changed since the command was accepted (R312) -/
  sameSet : Bool := true
  deriving DecidableEq, Repr

/-- A splice window beside its registers (R301 to R303, R308). -/
structure Window where
  /-- prefetch buffer: word and boundaries passed since it arrived -/
  buf : List (Word × Nat) := []
  runOpen : Option (Nat × Bool) := none
  polled : Bool := false
  /-- the clk in which its last poll closed (R308) -/
  pollClosed : Option Nat := none
  lastPoll : Option (Nat × Nat) := none
  deriving DecidableEq, Repr

/-- An inbound entry (R309): port, origin, FUNC, TAG, ARG, PRI, clk of expiry. -/
structure Inbound where
  port : Nat
  org : Nat
  func : Nat
  tag : Nat
  arg : Nat
  pri : Nat
  expires : Nat
  deriving DecidableEq, Repr

/-- The splice bridge beside its registers (chapter 11). -/
structure Bridge where
  txns : Sparse Txn := []
  cmds : Sparse RemoteCmd := []
  nextCmd : Nat := 0
  windows : Sparse Window := []
  inbound : Sparse Inbound := []
  dpLog : Sparse (List Nat) := []
  leLog : Sparse (List Nat) := []
  deriving DecidableEq, Repr

/-- A wear ledger record (Table 13-6). -/
structure WearRec where
  otp : Bool
  kind : Nat
  unit : Nat
  cause : Nat
  row : Nat
  tick : Nat
  deriving DecidableEq, Repr

/-- A row retirement: the row, its spare row if one is free, its cause (R361). -/
structure RowCopy where
  ram : RamId
  row : Nat
  spare : Nat
  deriving DecidableEq, Repr

/-- The spare and wear manager (chapter 13). -/
structure Wear where
  live : List WearRec := []
  /-- programmed records by OTP position (`none`: invalid), and the live record that is being programmed (R368) -/
  otp : List (Option WearRec) := []
  programming : Option Nat := none
  /-- corrected count of each row, by row key (R360) -/
  rowCount : Sparse Nat := []
  copies : List RowCopy := []
  retired : List RowCopy := []
  /-- words that are uncorrectable as stored, by row key × 64 + word -/
  bad : List Nat := []
  scrubStart : Nat := 0
  /-- tether lanes that the loss of the tether PLL has failed (R445) -/
  pllLanes : List Nat := []
  /-- an engine that passed the self-test of SPARE_RETURN and returns at the next MAP (R357), and the lane that the free
  spare takes at the next MAP (R356) -/
  engineReturn : Option Nat := none
  spareDue : Option Nat := none
  /-- cause of each failed engine (0x1000 + e) and tether lane (0x2000 + l) -/
  cause : Sparse Nat := []
  deriving DecidableEq, Repr

/-- What a device sends over the tether (Table 13-7). -/
inductive Outgoing
  /-- a tick mark: BTIME, tick number and period of the tick -/
  | mark (btime tickNo period : Nat)
  | health (h : Health)
  | digest (digest : Nat) (void : Bool)
  | stream (i : StreamItem)
  /-- the emit half as it stands in HOUSE, unlisted words at their default -/
  | snapshot (emit : Sparse Word)
  /-- a change of the in-flight ledger (R383) -/
  | ledger (e : LedgerReport)
  /-- the configuration transfer of link-up (R370): live and staged values, knot and scale words -/
  | config (regs stage : Sparse Nat) (knots scales : Sparse Word)
  deriving DecidableEq, Repr

/-- The hot-standby pair beside its registers (chapter 13). -/
structure Pair where
  /-- the ineligibility causes that hold (Table 13-9) -/
  causes : List Nat := [7]
  /-- the standby's own digests for which the partner's has not come: tick, digest, void mark (R377) -/
  awaited : List (Nat × Nat × Bool) := []
  /-- digests of the partner, with their void marks, that have come before this device's own, and the tick in which one was
  found missing, whose late digest is not another's (R377) -/
  early : List (Nat × Bool) := []
  missTick : Option Nat := none
  /-- boundaries without health traffic, whether some has come since the boundary, whether a valid frame with a partner
  origin has come since the last, and the eligibility as it was then (R382) -/
  healthMissed : Nat := 0
  healthSeen : Bool := false
  partnerFrame : Bool := false
  wasEligible : Bool := false
  /-- a switchover is due at the next boundary (R381); `alone`: the standby takes over on its own (R382) -/
  switchPending : Bool := false
  alone : Bool := false
  /-- the standby has been ineligible in this tick (R381, R384) -/
  lapsed : Bool := false
  /-- between a switchover and EMIT of its tick, on the new active device: the buffers that the host has released since, as
  port and buffer (R380) -/
  preEmit : Option (List (Nat × Nat)) := none
  /-- the tether has been counted as lost since the link was last up (R382) -/
  lost : Bool := true
  /-- the partner's last report had its RSREQ at 1 (R379) -/
  partnerReq : Bool := false
  /-- a resynchronization is to start (R378); ticks since its snapshot was applied -/
  resyncWait : Bool := false
  snapTicks : Option Nat := none
  /-- the list-close mark of this tick has arrived, or none is awaited (R375) -/
  listClose : Bool := true
  /-- power states of the active device that apply at the next boundary (R372) -/
  ports : List (Nat × Nat) := []
  /-- forwarded results that have come before their command: OPCODE, SEQ, STATUS, results -/
  results : List (Nat × Nat × Nat × List Nat) := []
  /-- emit-window writes tagged with a later tick (R375) -/
  ahead : List (Nat × HostWrite) := []
  /-- the tick for which the active device tagged the COMMIT now in the stream (R375) -/
  commitTag : Option Nat := none
  /-- the partner's open sequences as its health traffic last reported them: SEQ, STATE, k, and n (R383) -/
  partnerLedger : List (Nat × Nat × Nat × Nat) := []
  /-- SEQ and STATUS of the partner's completed forwarded commands that are not compared yet, oldest first (R374) -/
  partnerDone : List (Nat × Nat) := []
  /-- what waits to go out over the tether with the clk in which it entered, oldest first, and whether the forwarding
  buffer has overflowed since the last resynchronization (R373) -/
  out : List (Nat × Outgoing) := []
  overflow : Bool := false
  /-- SEQ and STATUS of forwarded commands completed here and not yet compared (R374) -/
  streamStatus : List (Nat × Nat) := []
  deriving DecidableEq, Repr

/-- The power state of the device as a whole (chapter 17). -/
inductive RunPhase
  | inReset        -- a reset holds the device
  | starting       -- released, start-up in progress (Table 17-6)
  | boardTest      -- BOOTSEL 0b11 (Table 17-5)
  | ready
  deriving DecidableEq, Repr

/-- The instructions of the test access port (R467). -/
inductive TapInstr | bypass | samplePreload | extest | idcode
  deriving DecidableEq, Repr

/-- Clocks, resets and the test access port (chapters 17 and 18). -/
structure Power where
  phase : RunPhase := .inReset
  /-- restarts of the main PLL in this start-up (R451) -/
  pllRestarts : Nat := 0
  /-- monitors outside their warning window since their last event: 1, or 2 where the last sample was inside (R454) -/
  outside : Sparse Nat := []
  /-- a temperature warning has been given and no reading has fallen below TWARN − 5 °C since -/
  warned : Bool := false
  /-- the readings of the temperature sensors are those of this start-up (Table 17-10d) -/
  sensed : Bool := false
  /-- VCORE is in range, as far as the device has been told (R442) -/
  vcoreIn : Bool := false
  /-- the instruction of the test access port, what its selected data register last captured, and what stands in the
  boundary-scan register behind the pins, by pin (R467) -/
  tap : TapInstr := .idcode
  tapData : Nat := 0x19612DCB
  scan : Nat := 0
  /-- EXTEST has taken the pins while the device was READY: the host must reset the device (R476) -/
  pinsLost : Bool := false
  deriving DecidableEq, Repr

/-- An entry that has gone live and whose copy in block RAM is still to be rewritten (R179, R184): a buffer's or a
filter's, the clk in which the rewrite is done, its words by key as they stood, and its status pair as it stood. -/
structure Rewrite where
  port : Nat
  item : Nat
  filter : Bool
  due : Nat
  old : Sparse Nat
  status : Nat × Nat
  deriving DecidableEq, Repr

/-- The whole device. -/
structure State where
  /-- commands that wait, first in, first out -/
  pending : List Instr := []
  /-- live values of all register fields and table entries that differ from their reset values, by field key -/
  regs : Sparse Nat := []
  /-- staging copies that differ from the live values, by field key (R11, R396) -/
  stage : Sparse Nat := []
  /-- the staging contents as they stood when the boundary clk began, once a write in that clk has changed them (R44) -/
  stageWas : Option (Sparse Nat) := none
  /-- what the device has recorded in w1c and rc fields in one clk, by field key: that clk plus 1, the field as it stood
  before, and the number of increments, or the new value (R12) -/
  recorded : Sparse (Nat × Nat × Nat) := []
  tick : TickUnit := {}
  engine : Engine := {}
  queues : Sparse Queue := []
  merger : Merger := {}
  /-- block message RAM by block × 32,768 + word (R22) -/
  blockRam : Sparse Word := []
  /-- signal image halves (R238): an unlisted word reads 0x3_0000 -/
  captured : Sparse Word := []
  emit : Sparse Word := []
  /-- knot table by knot × 4 + word, scale table by entry × 3 + word (R244, R251) -/
  knots : Sparse Word := []
  scales : Sparse Word := []
  gateway : Gateway := {}
  cells : Sparse Cell := []
  ports : Sparse Port := []
  /-- live entries whose rewrite in block RAM is to come (R179) -/
  rewrites : List Rewrite := []
  blocks : Sparse Block := []
  binds : Sparse Bind := []
  /-- bindings whose report is stored and not evaluated, in the order of the closes (R275) -/
  evalQueue : List Nat := []
  bridge : Bridge := {}
  /-- wake log and keep-awake log rings (R338, R339) -/
  wakeLog : Sparse (List Nat) := []
  kaLog : Sparse (List Nat) := []
  wear : Wear := {}
  pair : Pair := {}
  power : Power := {}
  /-- the host port's output register: data and parity of the last read (R419, R423) -/
  hostOut : Dword := 0
  hostPar : BitVec 2 := 3
  /-- the presentation clk of the last host access (R418, R420) -/
  hostClk : Option Nat := none
  /-- block, within its region, that each region crossbar granted last, toward the chip and away from it (R33) -/
  crossIn : Sparse Nat := []
  crossOut : Sparse Nat := []
  /-- events that are written once a tick, by class, code and cause: already written in this tick -/
  once : List Nat := []
  /-- the model's own count of free values drawn (log entry 4) -/
  free : Nat := 0
  deriving DecidableEq, Repr

/-- The device in power-on reset: every register field at its reset value, with the cause of this reset in SYS_RSTCAUSE
(Table 17-3), and every table and queue empty. -/
def State.reset : State := { regs := [(F.SYS_RSTCAUSE.POR.key, 1)] }

end Sys2Proof.Machine
end

