-- ==== Sys2Proof/Machine/Ops.lean ====
section
/-! DEFINITION. The named operations over the state that the commands share: register fields and their staging
copies, units, time, events, and the queues of chapter 8. -/

namespace Sys2Proof.Machine

abbrev Outcome := Host.Outcome State Fault Refusal

/-- Applies `f` where `b` holds. -/
def onlyIf (b : Bool) (f : State → State) (s : State) : State := if b then f s else s

/-- Applies `f` for each element, in order. -/
def each (l : List α) (f : α → State → State) (s : State) : State := l.foldl (fun s a => f a s) s

/-- A command whose effect needs the device to have reached READY; before, the units it acts on are held in reset
and it has no effect (R428, R448, R450; log entry 2). -/
def ready (s : State) (f : State → State) : Outcome :=
  .next (if s.power.phase = .ready then f s else s)

/-- A value with fields at given bit positions. -/
def pack (l : List (Nat × Nat)) : Nat := l.foldl (fun a e => a + e.1 * 2 ^ e.2) 0

/-- A long value as words of 18 bits, low word first (R5). -/
def words (n v : Nat) : List Nat := (wordsOf n v).map (·.toNat)

/-! ### Register fields -/

namespace State

/-- The live value of a field. -/
def rd (s : State) (f : Field) : Nat := Sparse.get f.reset s.regs f.key

/-- A one-bit field as a truth value. -/
def flag (s : State) (f : Field) : Bool := s.rd f != 0

/-- The device writes a live field. -/
def wr (s : State) (f : Field) (v : Nat) : State :=
  { s with regs := Sparse.put f.reset s.regs f.key (v % f.size) }

/-- The device changes a w1c or rc field in the present clk: `n` increments, or the value `n` (R12). -/
def record (f : Field) (n : Nat) (s : State) : State :=
  let e := Sparse.get (0, 0, 0) s.recorded f.key
  let e' := if e.1 = s.tick.clk + 1 then (e.1, e.2.1, e.2.2 + n) else (s.tick.clk + 1, s.rd f, n)
  { s with recorded := if f.acc == .w1c || f.acc == .rc then Sparse.put (0, 0, 0) s.recorded f.key e' else s.recorded }

/-- What the device has recorded in a field in the present clk: the field as it stood before, and the increments (R12). -/
def recordedNow (s : State) (f : Field) : Option (Nat × Nat) :=
  let e := Sparse.get (0, 0, 0) s.recorded f.key
  if e.1 = s.tick.clk + 1 then some e.2 else none

/-- A saturating counter grows by `n` (R15). -/
def bump (s : State) (f : Field) (n : Nat := 1) : State :=
  (s.record f n).wr f (min (s.rd f + n) (f.size - 1))

/-- The device sets a flag. -/
def raise (f : Field) (s : State) : State := (s.record f 1).wr f 1

/-- The device loads a new highest value into a PEAK field. -/
def peak (f : Field) (v : Nat) (s : State) : State := (s.record f v).wr f v

/-- The staging copy of a field (R11). -/
def staged (s : State) (f : Field) : Nat := Sparse.get (s.rd f) s.stage f.key

/-- The present clk is the boundary clk in which a commit goes live, and its boundary is still to be made (R44). -/
def stageShut (s : State) : Bool :=
  decide (s.tick.stepTo.getD (s.tick.boundary + s.tick.period) ≤ s.tick.time) && s.engine.commit.any (·.skip == 0)

/-- The staging copies change; the boundary of this clk takes them as they stood before (R44). -/
def setStage (m : Sparse Nat) (s : State) : State :=
  { s with stage := m, stageWas := if s.stageShut then s.stageWas <|> some s.stage else s.stageWas }

/-- A value enters the staging copy of a field. -/
def stageWr (s : State) (f : Field) (v : Nat) : State := s.setStage (Sparse.put (s.rd f) s.stage f.key (v % f.size))

/-- The live value of a table entry held beside the registers, by its key. -/
def rdK (s : State) (k : Nat) (d : Nat := 0) : Nat := Sparse.get d s.regs k

def wrK (s : State) (k v : Nat) (d : Nat := 0) : State := { s with regs := Sparse.put d s.regs k v }

def stagedK (s : State) (k : Nat) (d : Nat := 0) : Nat := Sparse.get (s.rdK k d) s.stage k

def stageK (s : State) (k v : Nat) (d : Nat := 0) : State :=
  s.setStage (Sparse.put (s.rdK k d) s.stage k v)

/-- The device as it would be with every staging copy live: what COMMIT checks (R396). -/
def future (s : State) : State := { s with regs := Sparse.merge s.regs s.stage, stage := [] }

/-! ### Units -/

def cell (s : State) (c : Nat) : Cell := Sparse.get {} s.cells c
def port (s : State) (n : Nat) : Port := Sparse.get {} s.ports n
def block (s : State) (b : Nat) : Block := Sparse.get {} s.blocks b
def bind (s : State) (n : Nat) : Bind := Sparse.get {} s.binds n
def queue (s : State) (q : Nat) : Queue := Sparse.get {} s.queues q
def window (s : State) (w : Nat) : Window := Sparse.get {} s.bridge.windows w

def modCell (c : Nat) (f : Cell → Cell) (s : State) : State := { s with cells := Sparse.modify {} s.cells c f }
def modPort (n : Nat) (f : Port → Port) (s : State) : State := { s with ports := Sparse.modify {} s.ports n f }
def modBlock (b : Nat) (f : Block → Block) (s : State) : State := { s with blocks := Sparse.modify {} s.blocks b f }

/-- Port A of a block grants a cell: it becomes the last granted (R23). -/
def grant (c : Nat) (s : State) : State := s.modBlock (c / 9) fun B => { B with lastGrant := c % 9 }

/-- The region crossbar of block `b` makes its last grant toward the chip, or away from it, to that block (R33). -/
def crossToward (b : Nat) (s : State) : State := { s with crossIn := Sparse.put 2 s.crossIn (b / 3) (b % 3) }
def crossAway (b : Nat) (s : State) : State := { s with crossOut := Sparse.put 2 s.crossOut (b / 3) (b % 3) }

def modBind (n : Nat) (f : Bind → Bind) (s : State) : State := { s with binds := Sparse.modify {} s.binds n f }
def modQueue (q : Nat) (f : Queue → Queue) (s : State) : State := { s with queues := Sparse.modify {} s.queues q f }
def modWindow (w : Nat) (f : Window → Window) (s : State) : State :=
  { s with bridge := { s.bridge with windows := Sparse.modify {} s.bridge.windows w f } }
def modTick (f : TickUnit → TickUnit) (s : State) : State := { s with tick := f s.tick }
def modEngine (f : Engine → Engine) (s : State) : State := { s with engine := f s.engine }
def modGw (f : Gateway → Gateway) (s : State) : State := { s with gateway := f s.gateway }
def modBridge (f : Bridge → Bridge) (s : State) : State := { s with bridge := f s.bridge }
def modWear (f : Wear → Wear) (s : State) : State := { s with wear := f s.wear }
def modPair (f : Pair → Pair) (s : State) : State := { s with pair := f s.pair }
def modPower (f : Power → Power) (s : State) : State := { s with power := f s.power }

/-- Device time, as 54 bits (R41). -/
def now (s : State) : Nat := s.tick.time % 2 ^ 54

def tickNo (s : State) : Nat := s.rd F.TK_TICKNO.TICKNO

/-- The present clk (R9). -/
def clk (s : State) : Nat := s.tick.clk

/-- The rate correction as it acts, in 2^-24 (R59, R61): a positive one makes device time run faster (log entry 88). -/
def rateNow (s : State) : Int :=
  if s.rd F.TK_STATUS.STATE = 0 && !s.flag F.TK_STATUS.FALLBACK then 0
  else
    let v := s.rd F.TK_PHERR.RATE
    if v < 2 ^ 17 then v else (v : Int) - 2 ^ 18

end State

/-- `n` clk pass at rate correction `r`: whole clk of the correction that has added up join the slews still to make
(R59). -/
def TickUnit.correct (u : TickUnit) (r : Int) (n : Nat) : TickUnit :=
  let acc := u.rateAcc + r * n
  { u with slew := u.slew + acc.tdiv (2 ^ 24), rateAcc := acc.tmod (2 ^ 24) }

/-- The slew clks among `n` clk, each step up or down: as many as fit, one in 259 clk (R56; log entry 88). -/
def TickUnit.slews (u : TickUnit) (n : Nat) : Int := if u.slew = 0 then 0 else u.slew.sign * min u.slew.natAbs (n / 259)

/-- `d` slew steps have been made by clk `k`. -/
def TickUnit.slewed (u : TickUnit) (d : Int) (k : Nat) : TickUnit :=
  if d = 0 then u else { u with slew := u.slew - d, lastSlew := k }

namespace State

/-- Device time moves on to `t`, and never back (log entry 3). -/
def advance (t : Nat) (s : State) : State :=
  s.modTick fun u =>
    let n := t - u.time
    let v := u.correct s.rateNow n
    let d := v.slews n
    let k := u.clk + ((n : Int) - d).toNat
    { v.slewed d k with time := max u.time t, clk := k }

/-- Clk `k` comes, unless it has passed. -/
def advanceClk (k : Nat) (s : State) : State :=
  s.modTick fun u =>
    let n := k - u.clk
    let v := u.correct s.rateNow n
    let d := v.slews n
    { v.slewed d k with time := u.time + ((n : Int) + d).toNat, clk := max u.clk k }

/-- Device time of the next boundary (R42, R62). -/
def nextBoundary (s : State) : Nat := s.tick.stepTo.getD (s.tick.boundary + s.tick.period)

/-- The present clk is the boundary clk, or past it (R44). -/
def boundaryHere (s : State) : Bool := s.nextBoundary ≤ s.tick.time

/-- A value that the spec leaves open (log entry 4): the next free value, and the state that has drawn it. -/
def draw (s : State) : Nat × State := (Config.freeValue s.free, { s with free := s.free + 1 })

/-! ### Routing (R26, R29, R437) -/

def slotField (b k : Nat) : Field := ⟨0x1E000 + b * 0x100, 4 * k, 4, .r, k, fun _ => true⟩
def failedField (c : Nat) : Field := ⟨0x1E010 + c / 9 * 0x100, 4 * (c % 9) + 3, 1, .r, 0, fun _ => true⟩
def causeField (c : Nat) : Field := ⟨0x1E010 + c / 9 * 0x100, 4 * (c % 9), 3, .r, 0, fun _ => true⟩
def marginField (c : Nat) : Field := ⟨0x1E015 + c / 9 * 0x100, 4 * (c % 9), 4, .r, 0xF, fun _ => true⟩

/-- The cell to which the pin multiplexer routes port `n`. -/
def servingCell (s : State) (n : Nat) : Nat := n / 8 * 9 + s.rd (slotField (n / 8) (n % 8))

/-- The port that a cell serves, if any: the port routed to it. -/
def servedPort (s : State) (c : Nat) : Option Nat :=
  ((List.range 8).find? fun k => s.rd (slotField (c / 9) k) == c % 9).map (c / 9 * 8 + ·)

/-- The cell number whose page keys the st fields of port `n` in the register store (R437). -/
def home (n : Nat) : Nat := n / 8 * 9 + n % 8

/-- The page key of the st fields that govern cell `c`: those of the port it serves, or its own. -/
def cfg (s : State) (c : Nat) : Nat := match s.servedPort c with | some n => home n | none => c

/-- Whether the domain of block `b` is on and its power-up has ended (R31, R318). -/
def blockOn (s : State) (b : Nat) : Bool :=
  bitOf (s.rd F.SYS_PWRDOM.ON) b && !bitOf (s.rd F.SYS_PWRDOM.PWRUP) b

end State

/-! ### Keys of the tables that staging commands write -/

def descKey (n d w : Nat) : Nat := 0x4000000 + ((n * 128 + d) * 4 + w)
def filtKey (n f w : Nat) : Nat := 0x8000000 + ((n * 64 + f) * 6 + w)
def bindKey (n w : Nat) : Nat := 0xC000000 + (n * 12 + w)
def policyKey (p w : Nat) : Nat := 0xD000000 + (p * 6 + w)
/-- The power state that PORT_POWER stages for a port, plus 1; 0: none staged (R320). -/
def powerKey (n : Nat) : Nat := 0xE000000 + n

namespace State

/-- The device is the standby of a pair (SP_PSTAT.ROLE). -/
def isStandby (s : State) : Bool := s.rd F.SP_PSTAT.ROLE == 2

/-- A commit lock is held (R398): it ends in the boundary clk in which its commit goes live (R44). -/
def locked (s : State) : Bool := s.flag F.CE_STAT.LOCK && !s.stageShut

/-! ### Events (R392, R220) -/

/-- A unit posts an event record of a happening at device time `time`. -/
def postAt (time cls code unit : Nat) (body : List Nat) (s : State) (level : Nat := 0) : State :=
  { s with merger := { s.merger with
      posted := s.merger.posted ++ [⟨cls, code, time, level, unit, body.map (· % 2 ^ 18)⟩] } }

/-- A unit posts an event record in the present clk. -/
def post (cls code unit : Nat) (body : List Nat) (s : State) (level : Nat := 0) : State :=
  s.postAt s.now cls code unit body level

/-- Posts an event that is written once a tick. -/
def postOnce (key cls code unit : Nat) (body : List Nat) (s : State) : State :=
  if key ∈ s.once then s else ({ s with once := key :: s.once }).post cls code unit body

/-! ### Queues (chapter 8) -/

end State

namespace Queue

/-- FILL (R218): the words that the queue holds, committed or not. -/
def fill (q : Queue) : Nat := q.vis.length + q.opened.length

/-- The words that a device producer has still to push. -/
def owed (q : Queue) : Nat := (q.coming.map (·.2.length)).foldl (· + ·) 0

/-- A watermark comparison is due in clk `k`. -/
def dueAt (k : Nat) (q : Queue) : Queue := { q with due := q.due.takeWhile (· ≤ k) ++ k :: q.due.dropWhile (· ≤ k) }

/-- The words of device packets that have been pushed before clk `k` are in the queue; a packet is visible from the clk
after its END (R222). -/
def landed (k : Nat) : List (Nat × List QWord) → Queue → Queue
  | [], q => { q with coming := [] }
  | (at', ws) :: t, q =>
    if at' + ws.length ≤ k then landed k t { q with vis := q.vis ++ q.opened ++ ws, opened := [] }
    else if at' < k then
      { q with opened := q.opened ++ ws.take (k - at'), coming := (k, ws.drop (k - at')) :: t }
    else { q with coming := (at', ws) :: t }

def land (k : Nat) (q : Queue) : Queue := landed k q.coming q

/-- PKTS (R227): visible packets whose END word has not been popped. -/
def packets (q : Queue) : Nat := (q.vis.filter (·.last)).length

/-- The words of the first visible packet that have not been popped. -/
def head : List QWord → List QWord
  | [] => []
  | w :: t => if w.last then [w] else w :: head t

end Queue

/-- A packet of words with the END mark on the last. -/
def packet : List Nat → List QWord
  | [] => []
  | [w] => [⟨wordOf w, true, none⟩]
  | w :: t => ⟨wordOf w, false, none⟩ :: packet t

/-- The QID of queue `q` of the set of port `n`: RQ0, RQ1 or TQ (R214, R215). -/
def qid (n q : Nat) : Nat := 4 * (n / 8 * 9 + n % 8) + q

def qCommand : Nat := 0x210
def qReply : Nat := 0x211
def qEvent : Nat := 0x212

/-- QIDs that name a queue (Table 8-2). -/
def queueExists (q : Nat) : Bool :=
  (q < 0x1B0 && q % 4 != 3) || (0x200 ≤ q && q ≤ 0x203) || (0x210 ≤ q && q ≤ 0x212)

def isBulk (q : Nat) : Bool := 0x200 ≤ q && q ≤ 0x203

namespace State

/-- Whether a queue is enabled now (Table 8-10e, R216, R217). -/
def queueOn (s : State) (q : Nat) : Bool :=
  if q < 0x1B0 then s.flag (F.QCFG.EN q) && s.blockOn (q / 36)
  else if isBulk q then s.rd (F.QCFG.BIND q) != 0
  else 0x210 ≤ q && q ≤ 0x212

/-- Whether the host is the producer of a queue (Tables 8-1 and 8-3). -/
def hostProduces (s : State) (q : Nat) : Bool :=
  s.queueOn q && (if q < 0x1B0 then q % 4 == 2
    else if isBulk q then s.rd (F.QCFG.BIND q) == 2 || s.rd (F.QCFG.BIND q) == 4 else q == qCommand)

/-- Whether the host is the consumer of a queue. -/
def hostConsumes (s : State) (q : Nat) : Bool :=
  s.queueOn q && (if q < 0x1B0 then q % 4 ≤ 1
    else if isBulk q then s.rd (F.QCFG.BIND q) == 1 || s.rd (F.QCFG.BIND q) == 3 || s.rd (F.QCFG.BIND q) == 5
    else q == qReply || q == qEvent)

/-- CREDIT (R218); 0 while disabled (Table 8-10g). -/
def credit (s : State) (q : Nat) : Nat :=
  if s.queueOn q then s.rd (F.QCTL.CEIL q) - (s.queue q).fill else 0

/-- CREDIT for a device producer, which sends one packet after the other (R220). -/
def room (s : State) (q : Nat) : Nat := s.credit q - (s.queue q).owed

/-- The watermark comparison of R234 and the notices of R235. -/
def compareMarks (q : Nat) (s : State) : State :=
  let v := (s.queue q).vis.length
  let hi := v ≥ s.rd (F.QWM.HWM q)
  let lo := v ≤ s.rd (F.QWM.LWM q)
  let s1 := onlyIf (hi && !s.flag (F.QSTAT.HI q)) (fun s => (s.raise (F.QMON.HNOT q)).bump (F.QMON.HCROSS q)) s
  let s2 := onlyIf (lo && !s.flag (F.QSTAT.LO q)) (fun s => (s.raise (F.QMON.LNOT q)).bump (F.QMON.LCROSS q)) s1
  (s2.wr (F.QSTAT.HI q) (b2n hi)).wr (F.QSTAT.LO q) (b2n lo)

/-- A comparison is due in the clk that comes `n` after this one (R234). -/
def watch (q n : Nat) (s : State) : State := s.modQueue q (·.dueAt (s.clk + n))

/-- The words that the unit bound to a bulk queue has pushed before clk `k` are in it; no other producer pushes over
several clk in the model. -/
def landQueue (q k : Nat) (s : State) : State := if isBulk q then s.modQueue q (·.land k) else s

/-- What has come about in a queue before the present clk: the words that its device producer has pushed, and the
comparisons, each with VIS as it stood at the start of its clk (R222, R234). -/
def settle (q : Nat) (s : State) : State :=
  let Q := s.queue q
  if Q.due == [] && Q.coming == [] then s
  else
    let s := each (Q.due.filter (· ≤ s.clk)) (fun k s => (s.landQueue q k).compareMarks q) s
    (s.landQueue q s.clk).modQueue q fun Q => { Q with due := Q.due.filter (s.clk < ·) }

/-- `settle` for every queue. -/
def settleAll (s : State) : State := each (s.queues.map (·.1)) settle s

/-- A device producer pushes a whole packet, which becomes visible (R220, R222); the caller has checked credit. -/
def pushPacket (q : Nat) (ws : List Nat) (s : State) : State :=
  if ws = [] then s
  else ((s.settle q).modQueue q fun Q => { Q with vis := Q.vis ++ packet ws }).watch q 2

/-- The unit bound to a bulk queue begins to push a packet, one word per clk, behind those that it still pushes
(R222, R231); the caller has checked credit. -/
def pushBulk (q : Nat) (ws : List Nat) (s : State) : State :=
  let s := s.settle q
  let at' := ((s.queue q).coming.getLast?.map fun e => e.1 + e.2.length).getD s.clk
  s.modQueue q fun Q => { Q with coming := Q.coming ++ [(at', packet ws)] }.dueAt (at' + ws.length + 1)

/-- The body of a queue event (R237, Table 8-11). -/
def queueEvent (q code cause : Nat) (rest : List Nat) (s : State) : State :=
  s.post 0x07 code q (pack [(q, 8), (cause, 4)] :: rest)

/-- Rewinds the open packet of a queue (R224) with a cause of Table 8-5; `closed`: its further words are discarded. -/
def rewindOpen (q cause : Nat) (closed : Bool) (s : State) : State :=
  let l := (s.queue q).opened
  if l = [] then s
  else
    let word (k : Nat) : Nat := ((l.drop k).headD ⟨0, false, none⟩).word.toNat
    let s := s.modQueue q fun Q => { Q with opened := [], discarding := closed }
    (onlyIf (cause != 6) (·.bump (F.QCNT.BADPKT q)) s).queueEvent q 0x03 cause [l.length % 4096, word 0, word 1]

/-- Rewinds the open packet of a queue of the host. A command packet whose words 0 and 1 have landed is owed a reply
(R225). -/
def rewind (q cause : Nat) (closed : Bool) (s : State) : State :=
  let l := (s.queue q).opened
  let word (k : Nat) : Nat := ((l.drop k).headD ⟨0, false, none⟩).word.toNat
  onlyIf (q == qCommand && 2 ≤ l.length)
    (·.modEngine fun e => { e with rewound := e.rewound ++
      [⟨bitsOf (word 0) 17 10, bitsOf (word 1) 17 6, if cause = 6 then 0x19 else 0x09⟩] }) (s.rewindOpen q cause closed)

/-- The length that the class rule gives a packet of the host (Table 8-4), by its first word. -/
def Queue.wanted (q : Nat) (w0 : Nat) : Nat :=
  if q < 0x1B0 then 6 + bitsOf w0 11 6
  else if isBulk q then 1 + bitsOf w0 11 0
  else 2 + bitsOf w0 5 0

/-- The greatest packet of a class (Table 8-4). -/
def Queue.maximum (q : Nat) : Nat :=
  if q < 0x1B0 then 38 else if isBulk q then 4096 else 65

/-- The host pushes one word into a queue whose producer it is (R218, R219, R222 to R224). -/
def hostPush (q : Nat) (w : Nat) (last : Bool) (s : State) : State :=
  let Q := s.queue q
  if Q.discarding then onlyIf last (·.modQueue q fun Q => { Q with discarding := false }) s
  else if s.credit q = 0 then
    let o := Q.opened
    let body := [o.length % 4096, (o.headD ⟨0, false, none⟩).word.toNat,
      ((o.drop 1).headD ⟨0, false, none⟩).word.toNat]
    ((((s.bump (F.QCNT.CRV q)).queueEvent q 0x01 0 body).rewind q 6 (!last)).modQueue q
      fun Q => { Q with discarding := !last })
  else if Queue.maximum q ≤ Q.opened.length then s.rewind q 3 (!last)
  else
    let o := Q.opened ++ [⟨wordOf w, last, none⟩]
    let s := s.modQueue q fun Q => { Q with opened := o }
    if !last then s
    else if o.length ≠ Queue.wanted q (o.headD ⟨0, false, none⟩).word.toNat then s.rewind q 2 false
    else ((s.settle q).modQueue q fun Q => { Q with vis := Q.vis ++ o, opened := [] }).watch q 2

/-- The host pushes a word with ABORT = 1 (R224). -/
def hostAbort (q : Nat) (s : State) : State :=
  (s.rewind q 0 false).modQueue q fun Q => { Q with discarding := false }

/-- The consumer pops the first visible word (R226); watermarks are compared when a packet's last word goes. -/
def popWord (q : Nat) (s : State) : Option (QWord × State) :=
  let s := s.settle q
  match (s.queue q).vis with
  | [] => none
  | w :: t =>
    let s := s.modQueue q fun Q => { Q with vis := t }
    some (w, if w.last then s.watch q 1 else s)

/-- Discards the rest of the consumer's packet, or the first visible packet (R232): the words discarded. -/
def dropPacket (q : Nat) (s : State) : Nat × State :=
  let s := s.settle q
  let h := Queue.head (s.queue q).vis
  if h = [] then (0, s)
  else (h.length, (s.modQueue q fun Q => { Q with vis := Q.vis.drop h.length }).watch q 1)

/-- Empties a queue (R216, R217, R233): an open packet is rewound with the given cause. A device producer makes no
further push of that packet; at a flush (cause 5) those that it has not begun follow (R224, R231). -/
def emptyQueue (q cause : Nat) (s : State) : State :=
  let s := s.settle q
  let device := (s.queue q).coming != []
  let begun := (s.queue q).opened != []
  ((s.rewind q cause (!device)).modQueue q fun Q =>
    { Q with vis := [], coming := if cause = 5 then Q.coming.drop (b2n begun) else [] }).watch q 1

/-- A device consumer takes the first visible packet of a queue that no one has begun: the words, or `none` where no
packet is visible. -/
def takePacket (q : Nat) (s : State) : Option (List QWord × State) :=
  let h := Queue.head (s.queue q).vis
  if h = [] then none else some (h, (s.dropPacket q).2)

/-- The comparisons that are due are made with VIS as it stands (log entry 6): the packet that the device takes in this
step has stood in the queue before. -/
def markNow (q : Nat) (s : State) : State :=
  each (s.queue q).due (fun _ s => s.compareMarks q) (s.modQueue q fun Q => { Q with due := [] })

/-- A device consumer discards the packet it has taken, for an uncorrectable word (R230). -/
def badPacket (q : Nat) (h : List QWord) (s : State) : State :=
  let w0 := (h.headD ⟨0, false, none⟩).word.toNat
  let w1 := ((h.drop 1).headD ⟨0, false, none⟩).word.toNat
  let s := (s.bump (F.QCNT.BADPKT q)).queueEvent q 0x03 7 [h.length % 4096, w0, w1]
  onlyIf (q == qCommand) (·.modEngine fun e => { e with rewound := e.rewound ++ [⟨bitsOf w0 17 10, bitsOf w1 17 6, 9⟩] }) s

/-! ### Signal memories and block RAM -/

/-- What an unlisted word of the signal image reads as (R238). -/
def imgDefault : Word := 0x30000#18

/-- The code of a RAM in the wear ledger: KIND and unit of a row (Table 13-6). -/
def ramCode : RamId → Nat
  | .block b => 48 + b
  | .captured => 65
  | .emit => 66
  | .knot => 67
  | .scale => 68
  | .queue => 69
  | .patch => 70

/-- The key of a RAM word among the uncorrectable ones. -/
def badKey (r : RamId) (w : Nat) : Nat := ramCode r * 262144 + w

/-- A word is stored as uncorrectable. -/
def isBad (s : State) (r : RamId) (w : Nat) : Bool := s.wear.bad.contains (badKey r w)

/-- A word that is written takes valid check bits (R361). -/
def wrote (key : Nat) (s : State) : State :=
  if key ∈ s.wear.bad then s.modWear fun w => { w with bad := w.bad.filter (· != key) } else s

def capWord (s : State) (i : Nat) : Word := Sparse.get imgDefault s.captured i
def emitWord (s : State) (i : Nat) : Word := Sparse.get imgDefault s.emit i
def wrCap (i : Nat) (w : Word) (s : State) : State :=
  { s with captured := Sparse.put imgDefault s.captured i w }.wrote (badKey .captured i)
def wrEmit (i : Nat) (w : Word) (s : State) : State :=
  { s with emit := Sparse.put imgDefault s.emit i w }.wrote (badKey .emit i)
def knotWord (s : State) (k w : Nat) : Word := Sparse.get 0 s.knots (k * 4 + w)
def wrKnot (k w : Nat) (v : Word) (s : State) : State :=
  { s with knots := Sparse.put 0 s.knots (k * 4 + w) v }.wrote (badKey .knot (k * 4 + w))
def scaleWord (s : State) (e w : Nat) : Word := Sparse.get 0 s.scales (e * 3 + w)
def wrScale (e w : Nat) (v : Word) (s : State) : State :=
  { s with scales := Sparse.put 0 s.scales (e * 3 + w) v }.wrote (badKey .scale (e * 3 + w))

/-- A word of block RAM as stored. -/
def ram (s : State) (b i : Nat) : Word := Sparse.get 0 s.blockRam (b * 32768 + i % 32768)
def wrRam (b i : Nat) (v : Word) (s : State) : State :=
  { s with blockRam := Sparse.put 0 s.blockRam (b * 32768 + i % 32768) v }.wrote ((48 + b) * 262144 + i % 32768)
def wrRams (b i : Nat) (l : List Word) (s : State) : State :=
  ((List.range l.length).zip l).foldl (fun s e => s.wrRam b (i + e.1) e.2) s
def ramList (s : State) (b i n : Nat) : List Word := (List.range n).map fun k => s.ram b (i + k)

/-! ### What goes out over the tether (R373, Table 13-7) -/

/-- An item waits to go out over the tether. A stream item that finds the 4,096 entries of the forwarding buffer taken is
lost. An entry is taken to have gone after 400 clk (log entry 98). -/
def send (o : Outgoing) (s : State) : State :=
  if s.rd F.SP_PSTAT.LINK ≠ 2 then s
  else
    let l := s.pair.out.filter fun e => s.clk < e.1 + 400
    let entries := l.filter fun e => match e.2 with | .stream _ => true | _ => false
    let room : Bool := match o with | .stream _ => decide (entries.length < 4096) | _ => true
    s.modPair fun p => { p with out := if room then l ++ [(s.clk, o)] else l, overflow := p.overflow || !room }

/-- The active device of a pair forwards an item of the stream. -/
def forward (i : StreamItem) (s : State) : State := if s.rd F.SP_PSTAT.ROLE = 1 then s.send (.stream i) else s

end State
end Sys2Proof.Machine
end

