-- ==== Sys2Proof/Machine/Operands.lean ====
section
/-! DEFINITION. Operand forms of command packets: target words, register blocks and register values (Table 14-6). -/

namespace Sys2Proof.Machine

/-- The argument words of a packet as numbers; word `i` of the packet is argument `i - 2`. -/
def Operand.args (p : Packet) : List Nat := p.args.map (·.toNat)

/-- Word `i` of a command packet, for i from 2. -/
def Operand.word (a : List Nat) (i : Nat) : Nat := (a.drop (i - 2)).headD 0

/-- A 36-bit value in words `i` and `i + 1`, low word first. -/
def Operand.dword (a : List Nat) (i : Nat) : Nat := Operand.word a i + 2 ^ 18 * Operand.word a (i + 1)

/-- PORT of the target word T (bits [13:7]). -/
def Operand.port (a : List Nat) : Nat := bitsOf (Operand.word a 2) 13 7

/-- ITEM of the target word T (bits [6:0]). -/
def Operand.item (a : List Nat) : Nat := bitsOf (Operand.word a 2) 6 0

/-- K of the target word T (bits [17:14]). -/
def Operand.cand (a : List Nat) : Nat := bitsOf (Operand.word a 2) 17 14

/-- A target word names a port from 0 to 95; 96 to 127 are reserved. K is 0 in every command but PORT_TIMING
(R400): another value is out of its range. -/
def Operand.portOk (a : List Nat) : Bool := Operand.port a < 96 && Operand.cand a == 0

/-- The bits set in SEL, in ascending order. -/
def Operand.bits (sel n : Nat) : List Nat := (List.range n).filter fun i => sel.testBit i

/-- The register values of a register block whose SEL word is word `i`: bit and value of each register. -/
def Operand.block (a : List Nat) (i n : Nat) : List (Nat × Nat) :=
  let bs := Operand.bits (Operand.word a i) n
  ((List.range bs.length).zip bs).map fun e => (e.2, Operand.dword a (i + 1 + 2 * e.1))

/-- SEL is not empty and has no bit beyond the block's range (R401). -/
def Operand.selOk (sel n : Nat) : Bool := sel != 0 && sel < 2 ^ n

/-- The value that a dword holds for a field. -/
def Field.of (f : Field) (v : Nat) : Nat := bitsOf v (f.lo + f.width - 1) f.lo

/-- No st field of a register value is reserved (R14). -/
def Reg.legal (r : Reg) (v : Nat) : Bool := r.all fun f => f.acc != .st || f.legal (f.of v)

/-- Stages the st fields of a register value; fields of other access codes are ignored. -/
def State.stageReg (r : Reg) (v : Nat) (s : State) : State :=
  each (r.filter (·.acc == .st)) (fun f s => s.stageWr f (f.of v)) s

end Sys2Proof.Machine
end

