-- ==== Sys2Proof/Machine/Engine.lean ====
section
/-! DEFINITION. The command engine (chapter 14): taking a packet, wait causes, the ledger, the journal, replies. -/

namespace Sys2Proof.Machine

/-- How the effect of a command ends its execution. -/
inductive CmdOut
  /-- it completes with a status, result words and the number of steps that took effect -/
  | done (status : Nat) (results : List Nat) (k : Nat) (s : State)
  /-- it is handed off to its unit under the unit's number for it (R394) -/
  | handed (tag : Nat) (s : State)
  /-- COMMIT whose checks passed: its reply is due, its ledger entry completes at the boundary (R404) -/
  | locked (results : List Nat) (skip : Nat) (s : State)

/-- One row of Table 14-4. -/
structure CmdSpec where
  opcode : Nat
  /-- the opcode is in Table 14-4 -/
  listed : Bool := true
  /-- LEN fits the command's LEN column, given the arguments -/
  lenOk : List Nat → Bool
  /-- every argument is in its range and none is reserved -/
  argsOk : State → List Nat → Bool := fun _ _ => true
  /-- n of the in-flight ledger -/
  steps : List Nat → Nat := fun _ => 1
  /-- a J command -/
  journal : Bool := false
  /-- kind S -/
  staging : Bool := false
  /-- kind W -/
  span : Bool := false
  /-- kind H, one at a time (R394) -/
  single : Bool := false
  /-- forwarded in a pair (Table 13-8) -/
  forwarded : Bool := false
  effect : Packet → State → CmdOut

/-- The ledger slot recorded for a command that has no entry yet. -/
def noSlot : Nat := 256

/-- Opcodes whose commands the journal records (Table 14-4) and that can end after they are handed off; NET_SLEEP and
NET_WAKE do so on a standby (Table 13-8). -/
def journaledHandoff (op : Nat) : Bool :=
  op == 0x48 || op == 0x49 || op == 0x58 || op == 0x59 || op == 0x5A || op == 0x61

namespace State

/-- Writes a journal entry of 8 words (R403, Table 14-12). -/
def journal (op status src seq len a0 a1 : Nat) (s : State) : State :=
  let e := s.rd F.CE_JLOG.NEXT
  let ws := [pack [(op, 10), (status, 4), (src, 2)], pack [(seq, 6), (len, 0)]] ++ words 2 s.tickNo ++
    words 2 s.now ++ [a0, a1]
  let s := s.modEngine fun g => { g with journal := Sparse.ins g.journal e ws }
  (s.wr F.CE_JLOG.NEXT (e + 1)).bump F.CE_JLOG.TOTAL

/-- Writes a reply packet (Table 14-2). -/
def reply (op status seq : Nat) (results : List Nat) (s : State) : State :=
  s.pushPacket qReply ([pack [(op, 10), (status, 4)], pack [(seq, 6), (results.length, 0)]] ++ results)

/-- Counts a status decision in CE_CNT (Table 14-14c). -/
def countStatus (status : Nat) (s : State) : State :=
  if status = 0x08 then s.bump F.CE_CNT.BADOP
  else if status = 0x09 then s.bump F.CE_CNT.BADARG
  else if status = 0x18 then s.bump F.CE_CNT.WAITOUT
  else s

/-- The lowest free ledger slot, if any (R404). -/
def freeSlot (s : State) : Option Nat := (List.range 256).find? fun i => (Sparse.find s.engine.ledger i).isNone

/-- The oldest completed entry, which a command that needs a slot frees (R405). -/
def oldestDone (s : State) : Option Nat :=
  (s.engine.ledger.foldl (fun (a : Option (Nat × Nat)) e =>
    if e.2.state = 2 then
      match a with
      | some b => if e.2.age < b.2 then some (e.1, e.2.age) else a
      | none => some (e.1, e.2.age)
    else a) none).map (·.1)

/-- An open and not completed entry with this SEQ (R406). -/
def seqOpen (s : State) (seq : Nat) : Bool := s.engine.ledger.any fun e => e.2.seq == seq && e.2.state != 2

/-- What the health traffic tells of a ledger entry. -/
def ledgerReport (e : LedgerEntry) : LedgerReport :=
  ⟨BitVec.ofNat 12 e.seq, BitVec.ofNat 2 e.state, BitVec.ofNat 6 e.k, BitVec.ofNat 6 (if e.state = 2 then e.status else e.n),
    e.carried⟩

/-- The active device of a pair reports a change of its ledger when it occurs (Table 13-7). -/
def sendEntry (e : LedgerEntry) (s : State) : State :=
  if s.rd F.SP_PSTAT.ROLE = 1 then s.send (.ledger (ledgerReport e)) else s

def setLedger (f : Sparse LedgerEntry → Sparse LedgerEntry) (s : State) : State :=
  s.modEngine fun g => { g with ledger := f g.ledger }

/-- Opens a ledger entry (R404, R405): completed entries with the same SEQ go, and the oldest completed one where
no slot is free. `none` where all 256 entries are open and not completed. -/
def openEntry (seq n : Nat) (track : Bool) (s : State) : Option (Nat × State) :=
  let s := s.setLedger (·.filter fun e => e.2.seq != seq)
  let ent : LedgerEntry := ⟨seq, 0, 0, n, 0, track, false, 0, false⟩
  match s.freeSlot with
  | some i => some (i, (s.setLedger (Sparse.ins · i ent)).sendEntry ent)
  | none =>
    match s.oldestDone with
    | some i => some (i, (s.setLedger fun l => Sparse.ins (Sparse.del l i) i ent).sendEntry ent)
    | none => none

/-- Changes a ledger entry, if the slot holds one. -/
def modEntry (slot : Nat) (f : LedgerEntry → LedgerEntry) (s : State) : State :=
  match Sparse.find s.engine.ledger slot with
  | some e => (s.setLedger (Sparse.ins · slot (f e))).sendEntry (f e)
  | none => s

/-- A ledger entry becomes completed; without TRACK it is freed (R404, R405). -/
def closeEntry (slot status : Nat) (s : State) : State :=
  match Sparse.find s.engine.ledger slot with
  | some e =>
    let s := s.modEngine fun g => { g with completions := g.completions + 1 }
    let done := { e with state := 2, status := status, age := s.engine.completions }
    (if e.track then s.setLedger (Sparse.ins · slot done) else s.setLedger (Sparse.del · slot)).sendEntry done
  | none => s

/-- Step k of a command completes. -/
def stepEntry (slot k : Nat) (s : State) : State := s.modEntry slot fun e => { e with state := 1, k := k }

/-! ### Replies that are owed -/

/-- Writes the reply of the oldest packet rewound after words 0 and 1 landed (R225), with credit for it. -/
def replyRewound (s : State) : State :=
  match s.engine.rewound with
  | [] => s
  | r :: t =>
    if s.credit qReply < 2 then s
    else
      let s := (s.modEngine fun g => { g with rewound := t }).reply r.opcode r.status r.seq []
      onlyIf (r.status == 0x09) (·.bump F.CE_CNT.BADARG) s

/-- The first ended handed-off command, in the order in which they ended, and the others. -/
def splitEnded : List Handoff → Option (Handoff × Nat × List Nat × List Handoff)
  | [] => none
  | h :: t =>
    match h.ended with
    | some (st, rs) => some (h, st, rs, t)
    | none => (splitEnded t).map fun r => (r.1, r.2.1, r.2.2.1, h :: r.2.2.2)

/-- Commands whose status and results the active device forwards to a standby that has the command (Table 13-8). -/
def resultCarried (op : Nat) : Bool := (0x41 ≤ op && op ≤ 0x44) || op == 0x48 || op == 0x49

/-- The active device forwards the status and results of a command of its host (R374). -/
def carryResult (op seq : Nat) (src : Source) (status : Nat) (results : List Nat) (s : State) : State :=
  onlyIf (resultCarried op && src == .host)
    (forward (.remoteResult (BitVec.ofNat 8 op) (BitVec.ofNat 12 seq) (BitVec.ofNat 6 status) (results.map wordOf))) s

/-- A standby has ended a command of the stream with this status, to compare it with the active device's (R374). -/
def endStream (seq : Nat) (src : Source) (status : Nat) (s : State) : State :=
  onlyIf (src == .stream) (·.modPair fun P => { P with streamStatus := P.streamStatus ++ [(seq, status)] }) s

/-- Writes the reply of the first ended handed-off command with credit for the whole reply (R394), with its status
decision: count, ledger and journal. -/
def replyHandoff (s : State) : State :=
  match splitEnded s.engine.handoffs with
  | none => s
  | some (h, st, rs, rest) =>
    let silent := h.quiet && st ≤ 1
    if !silent && s.credit qReply < 2 + rs.length then s
    else
      let s := (s.modEngine fun g => { g with handoffs := rest }).countStatus st
      let s := onlyIf (journaledHandoff h.opcode)
        (·.journal h.opcode st (if h.src = .stream then 1 else 0) h.seq h.len (h.args.headD 0).toNat
          ((h.args.drop 1).headD 0).toNat) s
      let s := onlyIf (!silent) (·.reply h.opcode st h.seq rs) s
      ((s.endStream h.seq h.src st).carryResult h.opcode h.seq h.src st rs).closeEntry h.slot st

/-- Writes every owed reply that credit allows: rewound packets, then ended handed-off commands (R225, R394). -/
def replyOwed (s : State) : State :=
  let s := each s.engine.rewound (fun _ => replyRewound) s
  each s.engine.handoffs (fun _ => replyHandoff) s

/-- The open handed-off command of an opcode and tag. -/
def handoff (s : State) (op tag : Nat) : Option Handoff :=
  s.engine.handoffs.find? fun h => h.opcode == op && h.tag == tag && h.ended.isNone

/-- A handed-off command ends at its unit with a status and results; one that ends with status 0x00 has taken its last step
(R404). -/
def endHandoff (op tag status : Nat) (results : List Nat) (s : State) : State :=
  let s := match s.handoff op tag with
    | some h => onlyIf (status == 0) (·.modEntry h.slot fun e => { e with state := 1, k := e.n }) s
    | none => s
  s.modEngine fun g =>
    let hit (h : Handoff) : Bool := h.opcode == op && h.tag == tag && h.ended.isNone
    { g with handoffs := g.handoffs.filter (fun h => !hit h) ++
        (g.handoffs.filter hit).map fun h => { h with ended := some (status, results) } }

/-- Step k of a handed-off command completes. -/
def stepHandoff (op tag k : Nat) (s : State) : State :=
  match s.handoff op tag with
  | some h => s.stepEntry h.slot k
  | none => s

/-! ### Running a command -/

/-- The engine is inside the span in which W commands run: EMIT or HOUSE, 128 clk before the next boundary (R260). -/
def inSpan (s : State) : Bool :=
  2 ≤ s.rd F.TK_STATUS.PHASE && s.tick.time + 128 ≤ s.tick.stepTo.getD (s.tick.boundary + s.tick.period)

/-- The wait cause that holds for a command (Table 14-9), the lowest where several hold; 0: none. -/
def waitCause (c : CmdSpec) (p : Packet) (slotOk : Bool) (s : State) : Nat :=
  if c.span && !s.inSpan then 1
  else if c.staging && s.locked then 2
  else if s.credit qReply < 65 then 3
  else if p.fence && s.engine.handoffs != [] then 4
  else if !slotOk then 5
  else 0

/-- A status is decided (R391, R403, R404): journal, count, reply unless QUIET, ledger. -/
def complete (c : CmdSpec) (p : Packet) (slot status : Nat) (results : List Nat) (k : Nat) (close : Bool)
    (s : State) : State :=
  let a := Operand.args p
  let s := onlyIf c.journal
    (·.journal c.opcode status (if p.src = .stream then 1 else 0) p.seq.toNat a.length (a.headD 0) ((a.drop 1).headD 0)) s
  let s := s.countStatus status
  let s := s.endStream p.seq.toNat p.src status
  let s := onlyIf (!(p.quiet && status ≤ 1)) (·.reply c.opcode status p.seq.toNat results) s
  let s := onlyIf (0 < k) (·.stepEntry slot k) s
  onlyIf close (·.closeEntry slot status) s

/-- The checks of R389 in order, after the opcode: the first status that applies. -/
def refuse (c : CmdSpec) (p : Packet) (s : State) : Option Nat :=
  let a := Operand.args p
  if !c.listed then some 0x08
  else if !c.lenOk a then some 0x09
  else if !c.argsOk s a then some 0x09
  else if c.forwarded && s.isStandby && p.src = .host then some 0x0A
  else if c.single && s.engine.handoffs.any (·.opcode == c.opcode) then some 0x0A
  else none

/-- The active device forwards a command of its host that Table 13-8 marks, with the tick for which a COMMIT is (R373,
R375); its ledger entry tells so (R374). -/
def carry (c : CmdSpec) (p : Packet) (slot tick : Nat) (s : State) : State :=
  onlyIf (c.forwarded && p.src == .host && s.rd F.SP_PSTAT.ROLE == 1) (fun s =>
    (s.forward (.command (BitVec.ofNat 8 c.opcode) p (BitVec.ofNat 36 tick))).modEntry slot fun e => { e with carried := true }) s

/-- Execution of a command that no longer waits. -/
def start (c : CmdSpec) (p : Packet) (slot : Nat) (s : State) : State :=
  let s := s.modEntry slot fun e => { e with state := 1 }
  match s.refuse c p with
  | some st => (s.carry c p slot (s.tickNo + 1)).complete c p slot st [] 0 true
  | none =>
    match c.effect p s with
    | .done st rs k s =>
      ((s.carry c p slot (s.tickNo + 1)).carryResult c.opcode p.seq.toNat p.src st rs).complete c p slot st rs k true
    | .handed tag s =>
      (s.carry c p slot (s.tickNo + 1)).modEngine fun g => { g with handoffs := g.handoffs ++
        [⟨c.opcode, p.seq.toNat, p.quiet, p.args.length, p.args, p.src, slot, tag, none⟩] }
    | .locked rs skip s =>
      let s := (s.carry c p slot (s.rd F.CE_COMMIT.TICKNO)).complete c p slot 0 rs 1 false
      let joined (o : Option PendingCommit) (skip : Nat) : Option PendingCommit := match o with
        | some c => some { c with others := c.others ++ [slot] }
        | none => some ⟨p.seq.toNat, slot, skip, []⟩
      if s.stageShut then s.modEngine fun g => { g with next := joined g.next (skip - 1) }
      else s.modEngine fun g => { g with commit := joined g.commit skip }

/-- The command waits, or starts, or has waited too long (R393). `n`: boundaries passed since it was popped. A wait that
ends in the clk of the WAITLIM-th boundary ends in time; a command that does not wait starts whatever WAITLIM is. The
reply of one that has waited too long waits for credit (R220). -/
def waitOrStart (c : CmdSpec) (p : Packet) (slot : Option Nat) (n : Nat) (s : State) : State :=
  let idle (s : State) := (s.wr F.CE_STAT.EXEC 0).wr F.CE_STAT.WAIT 0
  let lim := s.rd F.CE_CFG.WAITLIM
  let w := s.waitCause c p slot.isSome
  if w = 0 && (n = 0 || n < lim || (n == lim && s.tick.time == s.tick.boundary)) then
    idle ((s.modEngine fun g => { g with waiting := none }).start c p (slot.getD noSlot))
  else if lim ≤ n && 2 ≤ s.credit qReply then
    idle ((s.modEngine fun g => { g with waiting := none }).complete c p (slot.getD noSlot) 0x18 [] 0 true)
  else
    ((s.modEngine fun g => { g with waiting := some ⟨c.opcode, p, slot.getD noSlot, n⟩ }).wr
      F.CE_STAT.EXEC c.opcode).wr F.CE_STAT.WAIT (if w = 0 then 3 else w)

/-- A command that the engine has popped: a SEQ conflict (R406), then its ledger entry (R404, R405). -/
def take (c : CmdSpec) (p : Packet) (s : State) : State :=
  if s.seqOpen p.seq.toNat then s.complete c p noSlot (if c.listed then 0x09 else 0x08) [] 0 false
  else
    match s.openEntry p.seq.toNat (c.steps (Operand.args p)) p.track with
    | some (i, s) => s.waitOrStart c p (some i) 0
    | none => s.waitOrStart c p none 0

/-- The command that waits is looked at again. -/
def resume (c : CmdSpec) (w : WaitingCmd) (s : State) : State :=
  if w.slot = noSlot then
    match s.openEntry w.pkt.seq.toNat (c.steps (Operand.args w.pkt)) w.pkt.track with
    | some (i, s) => s.waitOrStart c w.pkt (some i) w.boundaries
    | none => s.waitOrStart c w.pkt none w.boundaries
  else s.waitOrStart c w.pkt (some w.slot) w.boundaries

end State
end Sys2Proof.Machine
end

