-- ==== Sys2Proof/Machine/Buffers.lean ====
section
/-! DEFINITION. Message buffers (chapter 7): descriptors, status pairs, records, releases, withdrawals, stores,
fetches and the transfers of CAPTURE and EMIT. -/

namespace Sys2Proof.Machine

/-- Replaces bits [hi:lo] of a number. -/
def putBits (v hi lo x : Nat) : Nat := v - bitsOf v hi lo * 2 ^ lo + (x % 2 ^ (hi - lo + 1)) * 2 ^ lo

/-! ### Descriptors (Table 7-2) -/

/-- A buffer descriptor, decoded. -/
structure Desc where
  typ : Nat
  xfer : Bool
  expect : Bool
  csusp : Bool
  shadow : Bool
  relmode : Nat
  reqans : Bool
  notify : Bool
  xlen : Nat
  relofs : Nat
  img : Nat
  recg : Nat
  dataptr : Nat
  deriving DecidableEq, Repr

/-- The descriptor that four words spell. -/
def Desc.of (w0 w1 w2 w3 : Nat) : Desc :=
  { typ := bitsOf w0 17 16, xfer := bitOf w0 15, expect := bitOf w0 14, csusp := bitOf w0 13,
    shadow := bitOf w0 12, relmode := bitsOf w0 11 10, reqans := bitOf w0 9, notify := bitOf w0 8,
    xlen := bitsOf w0 5 0, relofs := w1, img := bitsOf w2 15 0, recg := bitsOf w3 16 13, dataptr := bitsOf w3 12 0 }

/-- Payload words that a record holds: 4 × RECG − 6 (R181). -/
def Desc.capacity (d : Desc) : Nat := 4 * d.recg - 6

def Desc.isRx (d : Desc) : Bool := d.typ == 1
def Desc.isTx (d : Desc) : Bool := d.typ == 2

/-- Whether the words of a descriptor hold no reserved value and no nonzero field of the other type (R181). -/
def Desc.wordsOk (w0 w1 w2 w3 : Nat) : Bool :=
  let d := Desc.of w0 w1 w2 w3
  if d.typ == 0 then true
  else if d.typ == 3 then false
  else (2 ≤ d.recg && d.recg ≤ 10) && (d.xlen ≤ 32) && (0x900 ≤ d.dataptr && d.dataptr ≤ 0x1FFF) &&
    (if d.typ == 1 then d.relmode == 0 && !d.reqans && w1 == 0
     else !d.shadow && d.relmode != 3 && (d.relmode == 2 || w1 == 0))

namespace State

/-- The live descriptor of buffer `d` of port `n`. -/
def desc (s : State) (n d : Nat) : Desc :=
  Desc.of (s.rdK (descKey n d 0)) (s.rdK (descKey n d 1)) (s.rdK (descKey n d 2)) (s.rdK (descKey n d 3))

/-- The buffers of port `n` whose descriptor is not disabled, in ascending order. -/
def buffers (s : State) (n : Nat) : List Nat :=
  ((Sparse.range s.regs (descKey n 0 0) (descKey n 128 0)).filter (fun e => (e.1 - descKey n 0 0) % 4 == 0)).map
    (fun e => (e.1 - descKey n 0 0) / 4)

/-- The transmit buffers of port `n`. -/
def txBuffers (s : State) (n : Nat) : List Nat := (s.buffers n).filter fun d => (s.desc n d).isTx

/-- The live mode of port `n` on its bus: compatibility (R123). -/
def compat (s : State) (n : Nat) : Bool := (s.port n).busProto == 1

/-! ### Status pairs (Table 7-5) and records -/

/-- The word of S0 of a buffer in its block RAM (R174). -/
def s0Word (n d : Nat) : Nat := 0x1C00 + n % 8 * 0x100 + 2 * d

def s0 (s : State) (n d : Nat) : Nat := (s.ram (n / 8) (s0Word n d)).toNat
def s1 (s : State) (n d : Nat) : Nat := (s.ram (n / 8) (s0Word n d + 1)).toNat
def wrS0 (n d v : Nat) (s : State) : State := s.wrRam (n / 8) (s0Word n d) (wordOf v)
def wrS1 (n d v : Nat) (s : State) : State := s.wrRam (n / 8) (s0Word n d + 1) (wordOf v)
def setS0 (n d hi lo x : Nat) (s : State) : State := s.wrS0 n d (putBits (s.s0 n d) hi lo x)

def busy (s : State) (n d : Nat) : Bool := bitOf (s.s0 n d) 17
def alt (s : State) (n d : Nat) : Bool := bitOf (s.s0 n d) 16
def shnew (s : State) (n d : Nat) : Bool := bitOf (s.s0 n d) 15
def suspended (s : State) (n d : Nat) : Bool := d ∈ (s.port n).susp
def xbusy (s : State) (n d : Nat) : Bool := bitOf (s.s0 n d) 12
def held (s : State) (n d : Nat) : Bool := bitOf (s.s1 n d) 17

/-- LOST grows, saturating (Table 7-5). -/
def addLost (n d : Nat) (s : State) : State := s.setS0 n d 11 6 (min (bitsOf (s.s0 n d) 11 6 + 1) 63)

/-- COUNT grows, wrapping. -/
def addCount (n d : Nat) (s : State) : State := s.setS0 n d 5 0 (bitsOf (s.s0 n d) 5 0 + 1)

/-- First word of a copy of the record: the copy at DATAPTR, or the shadow RECG granules further on (R181). -/
def recordAt (s : State) (n d : Nat) (shadowPos : Bool) : Nat :=
  4 * (s.desc n d).dataptr + if shadowPos then 4 * (s.desc n d).recg else 0

/-- First word of the newest complete record (R197). -/
def newestRecord (s : State) (n d : Nat) : Nat := s.recordAt n d (s.alt n d != s.shnew n d)

/-- First word of the record that a transmit buffer sends. -/
def txRecord (s : State) (n d : Nat) : Nat := s.recordAt n d false

/-- A word of the record of a transmit buffer. -/
def txWord (s : State) (n d i : Nat) : Nat := (s.ram (n / 8) (s.txRecord n d + i)).toNat

/-! ### Buffer events (Table 7-11) -/

def bufferEvent (n d code cause : Nat) (rest : List Nat) (s : State) : State :=
  s.post 0x06 code (s.servingCell n) (pack [(d, 11), (cause, 7), (s.servingCell n, 0)] :: rest)

/-! ### Releases and withdrawals (R200, R207) -/

/-- The power state of a port (Table 12-1). -/
def portState (s : State) (n : Nat) : Nat := s.rd (F.PW_PSTAT.STATE n)

/-- A port in STANDBY, UMBRA or DARK is asleep. -/
def asleep (s : State) (n : Nat) : Bool := 2 ≤ s.portState n

/-- The port runs as QUIET: its live state is QUIET, or it is ACTIVE on a standby (R316, R372). A role that changes
at a switchover applies from the port's next frame boundary (R380). -/
def quiet (s : State) (n : Nat) : Bool :=
  s.portState n == 1 || (s.portState n == 0 && (s.isStandby != (s.port n).roleChange))

/-- The test mode of port `n` on its bus (Table 6-7): QUIET overrides CL_OPMODE.TEST with listen mode (R316). -/
def testMode (s : State) (n : Nat) : Nat := if s.quiet n then 1 else (s.port n).busTest

/-- A release makes a transmit buffer pending; a suspended buffer and a port asleep ignore it (R200, R316). -/
def release (n d : Nat) (s : State) : State :=
  if !s.asleep n && (s.desc n d).isTx && !s.suspended n d && !((s.port n).pend.contains d) then
    s.modPort n fun P => { P with pend := P.pend ++ [d] }
  else s

/-- A release by the host, which a new active device sends before its EMIT too (R380). -/
def hostRelease (n d : Nat) (s : State) : State :=
  (onlyIf s.pair.preEmit.isSome (·.modPair fun p => { p with preEmit := p.preEmit.map (· ++ [(n, d)]) }) s).release n d

/-- Takes a buffer out of the pending ones, and out of the serving cell's ready frame. -/
def unpend (n d : Nat) (s : State) : State :=
  let s := s.modPort n fun P => { P with pend := P.pend.filter (· != d) }
  s.modCell (s.servingCell n) fun C =>
    match C.ready with
    | some f => if f.src = .buffer d then { C with ready := none } else C
    | none => C

/-- Withdraws a pending buffer with a cause of R207, reported by event 0x01. -/
def withdraw (n d cause : Nat) (s : State) : State :=
  if (s.port n).pend.contains d then
    ((s.unpend n d).addLost n d).bufferEvent n d 0x01 cause (words 2 s.tickNo)
  else s

/-- Withdraws every pending buffer of a port. -/
def withdrawAll (n cause : Nat) (s : State) : State := each (s.port n).pend (fun d => withdraw n d cause) s

/-! ### Storing a received frame (R191, Table 7-7) -/

/-- PLEN of a record's word 0. -/
def plenOf (w0 : Nat) : Nat := bitsOf w0 11 6

/-- A frame is lost at its store: counted for the buffer, in an access that port A grants the cell (R23), and for the cell
(Table 7-7). -/
def loseFrame (n d : Nat) (s : State) : State :=
  ((s.addLost n d).grant (s.servingCell n)).bump (F.CL_FILTCNT.LOST (s.servingCell n))

/-- Claims a receive buffer for a record: the first row of Table 7-7 that fits. -/
def claimStore (c n d : Nat) (rec : List Word) (s : State) : State :=
  let D := s.desc n d
  let plen := plenOf (rec.headD 0).toNat
  let opened (shadowTarget : Bool) (s : State) : State :=
    s.modCell c fun C =>
      { C with store := some ⟨d, shadowTarget, s.recordAt n d (s.alt n d != shadowTarget), rec, false⟩ }
  if !D.isRx then s.bump (F.CL_FILTCNT.LOST c)
  else if s.suspended n d then s
  else if D.capacity < plen then
    (s.loseFrame n d).postOnce (0x6040000 + n * 128 + d) 0x06 0x04 c
      [pack [(d, 11), (c, 0)], plen, D.capacity]
  else if !s.held n d then opened false ((s.setS0 n d 17 17 1).grant c)
  else if !D.shadow then s.loseFrame n d
  else
    let s := if s.shnew n d then (s.loseFrame n d).setS0 n d 15 15 0 else s
    opened true ((s.setS0 n d 12 12 1).grant c)

/-- Writes the record and closes a store (R191 steps 2 and 3). A buffer whose descriptor a BUFFER_SET has replaced
since the claim has S0 cleared, is not listed and brings no event (R209; log entry 86). -/
def closeStore (c n : Nat) (o : OpenStore) (s : State) : State :=
  let d := o.buf
  let s := ((s.wrRams (n / 8) o.base o.record).grant c).modCell c fun C => { C with store := none }
  if o.stale then s.wrS0 n d 0
  else
    let D := s.desc n d
    let s := (s.addCount n d).setS0 n d (if o.shadow then 12 else 17) (if o.shadow then 12 else 17) 0
    let s :=
      if o.shadow then
        if s.held n d then s.setS0 n d 15 15 1
        else (s.setS0 n d 16 16 (b2n (!s.alt n d))).setS0 n d 15 15 0
      else s
    let s := onlyIf (D.isRx && D.xfer && !((s.port n).stored.contains d))
      (·.modPort n fun P => { P with stored := P.stored ++ [d] }) s
    onlyIf D.notify (·.bufferEvent n d 0x02 0
      [((o.record.drop 4).headD 0).toNat, ((o.record.drop 5).headD 0).toNat]) s

/-- The host writes S1 (Table 7-5, R193): HOLD is stored, and its release swaps the copies where the non-current one
is newer and not being stored. -/
def hostS1 (n d : Nat) (hold rel : Bool) (s : State) : State :=
  let s' := s.wrS1 n d (if hold then 2 ^ 17 else 0)
  let s' :=
    if s.held n d && !hold && (s.desc n d).isRx && s.shnew n d && !s.xbusy n d then
      (s'.setS0 n d 16 16 (b2n (!s.alt n d))).setS0 n d 15 15 0
    else s'
  onlyIf rel (·.hostRelease n d) s'

/-! ### CAPTURE and EMIT transfers (R197, R204) -/

/-- CAPTURE copies the newest complete record of a listed buffer into its capture area. -/
def captureBuffer (n d : Nat) (s : State) : State :=
  let D := s.desc n d
  let base := s.newestRecord n d
  let plen := plenOf (s.ram (n / 8) base).toNat
  let s := each (List.range D.xlen) (fun i s =>
    s.wrCap (D.img + i) (if i < min plen D.xlen then s.ram (n / 8) (base + 6 + i) else 0)) s
  s.modPort n fun P => { P with listed := P.listed.filter (· != d) }

/-- The words of a capture area whose quality is good become uncertain (R52, R199). -/
def markUncertain (n d : Nat) (s : State) : State :=
  let D := s.desc n d
  each (List.range D.xlen) (fun i s =>
    let w := s.capWord (D.img + i)
    if w.toNat / 2 ^ 16 = 0 then s.wrCap (D.img + i) (wordOf (w.toNat + 2 ^ 16)) else s) s

/-- CAPTURE is stopped for a buffer: its area keeps its contents, marked uncertain (Table 2-4). -/
def skipCapture (n d : Nat) (s : State) : State :=
  (s.markUncertain n d).modPort n fun P => { P with listed := P.listed.filter (· != d) }

/-- The EMIT transfer of a buffer claims S0 (R204). -/
def claimEmit (n d : Nat) (s : State) : State :=
  let x : OpenXfer := ⟨d, s.txRecord n d, (s.desc n d).img, (s.desc n d).xlen⟩
  (s.setS0 n d 12 12 1).modPort n fun P =>
    { P with emitDue := P.emitDue.filter (· != d), xferOpen := some x, xferCut := false }

/-- The release that an EMIT transfer brings when it ends (Table 7-8). -/
def releaseAtEmit (n d : Nat) (s : State) : State :=
  let D := s.desc n d
  if D.relmode == 1 || (D.relmode == 2 && !(s.port n).relDue.contains d) then s.release n d else s

/-- What EMIT transfers have left in a buffer, with a new one at time `t`: no report takes 2^25 clk from its SOF to its
evaluation, so that of the older ones the last is kept (R278). -/
def leave (t : Nat) (payload : List Nat) (l : List (Nat × List Nat)) : List (Nat × List Nat) :=
  let near (e : Nat × List Nat) : Bool := t < e.1 + 2 ^ 25
  (t, payload) :: (l.takeWhile near ++ (l.dropWhile near).take 1)

/-- The transfer writes its payload words into the record and ends (R204, R201). -/
def closeEmit (n : Nat) (x : OpenXfer) (payload : List Word) (s : State) : State :=
  let d := x.buf
  let cut := (s.port n).xferCut
  let s := ((s.wrRams (n / 8) (x.base + 6) payload).setS0 n d 12 12 0).modPort n fun P =>
    { P with
      xferOpen := none, xferCut := false
      emitted := Sparse.put [] P.emitted d (leave s.tick.time (payload.map (·.toNat)) (Sparse.get [] P.emitted d)) }
  let s := s.modCell (s.servingCell n) fun C =>
    match C.ready with
    | some f => if f.src = .buffer d then { C with ready := none } else C
    | none => C
  onlyIf (!cut) (·.releaseAtEmit n d) s

/-- The payload words of the transmit area of a claimed transfer. -/
def emitArea (s : State) (x : OpenXfer) : List Word := (List.range x.xlen).map fun i => s.emitWord (x.img + i)

/-- A dropped EMIT transfer of a buffer: under HOLD it is released as if XFER were 0, under SKIP not at all (R201).
A buffer with RELMODE 1 is then released when EMIT ends, with those whose XFER is 0. -/
def dropEmit (n d : Nat) (skip : Bool) (s : State) : State :=
  let D := s.desc n d
  let s := s.modPort n fun P => { P with emitDue := P.emitDue.filter (· != d) }
  if skip then s.modPort n fun P => { P with relDue := P.relDue.filter (· != d) }
  else if D.relmode == 1 then s.modPort n fun P => { P with emitHeld := P.emitHeld ++ [d] }
  else if D.relmode == 2 && !(s.port n).relDue.contains d then s.release n d
  else s

/-- EMIT ends other than by the boundary cut: buffers with RELMODE 1 and XFER 0 are released, and those whose
transfer HOLD dropped (Table 7-8, R201). -/
def releaseAfterEmit (n : Nat) (s : State) : State :=
  let held := (s.port n).emitHeld
  let s := each (s.txBuffers n) (fun d s =>
    let D := s.desc n d
    if D.relmode == 1 && (!D.xfer || held.contains d) then s.release n d else s) s
  s.modPort n fun P => { P with emitHeld := [] }

/-! ### A descriptor goes live (R179, R184, R207, R209) -/

/-- The rewrite in block RAM of a buffer's entry is still to come: no claim, fetch or close is made (R184). -/
def rewriting (s : State) (n d : Nat) : Bool :=
  s.rewrites.any fun r => !r.filter && r.port == n && r.item == d && s.clk < r.due

/-- The clk in which no rewrite of a buffer is to come any more. -/
def rewriteEnd (s : State) (n d : Nat) : Nat :=
  (s.rewrites.filter fun r => !r.filter && r.port == n && r.item == d).foldl (fun a r => max a r.due) s.clk

/-- The rewrite of an entry that has gone live is queued at port B behind those of its block: it takes at most 8 clk
(R179). How many is open (log entry 4). -/
def queueRewrite (n i : Nat) (filter : Bool) (old : Sparse Nat) (s : State) : State :=
  let (v, s) := s.draw
  let from' := (s.rewrites.filter fun r => r.port / 8 == n / 8).foldl (fun a r => max a r.due) s.clk
  let status := if filter then (0, 0) else (s.s0 n i, s.s1 n i)
  { s.crossAway (n / 8) with rewrites := (s.rewrites.filter fun r => s.clk < r.due) ++ [⟨n, i, filter, from' + 1 + v % 8, old, status⟩] }

/-- A BUFFER_SET for a buffer goes live: a pending buffer is withdrawn with cause 0x0, the suspension ends, and the
status pair is cleared; a store in progress completes first. `old`: its words as they stood. -/
def bufferLive (n d : Nat) (old : Sparse Nat) (s : State) : State :=
  let c := s.servingCell n
  let s := s.withdraw n d 0
  let s := s.modPort n fun P =>
    { P with susp := P.susp.filter (· != d), stored := P.stored.filter (· != d), listed := P.listed.filter (· != d),
             emitDue := P.emitDue.filter (· != d), relDue := P.relDue.filter (· != d),
             started := P.started.filter (· != d), emitted := Sparse.del P.emitted d }
  let s := s.modCell c fun C =>
    { C with
      store := C.store.map fun o => if o.buf = d then { o with stale := true } else o
      fetch := if C.fetch = some (.buffer d) then none else C.fetch
      attempt := C.attempt.map fun a => if a.frame.src = .buffer d then { a with orphan := true } else a
      clashRun := Sparse.del C.clashRun d }
  ((s.queueRewrite n d false old).wrS0 n d 0).wrS1 n d 0

end State
end Sys2Proof.Machine
end

