-- ==== Sys2Proof/Machine/Frames.lean ====
section
/-! DEFINITION. Frames on a bus (chapters 3 and 4): CRCs, stuffing, frame duration, header words, arbitration keys. -/

namespace Sys2Proof.Machine

/-- The bits of a number, most significant first (R6). -/
def bitsMsb : Nat → Nat → List Bool
  | 0, _ => []
  | n + 1, v => v.testBit n :: bitsMsb n v

/-- One step of a CRC register of `n` bits (R87). -/
def crcStep (n poly crc : Nat) (b : Bool) : Nat :=
  let sh := crc * 2 % 2 ^ n
  if b != crc.testBit (n - 1) then sh ^^^ poly else sh

/-- A CRC over bits in the order sent (R87). -/
def crcOf (n poly init : Nat) (bits : List Bool) : Nat := bits.foldl (crcStep n poly) init

/-- HCRC (R85). -/
def hcrc (bits : List Bool) : Nat := crcOf 8 0x2F 0xFF bits

/-- FCRC (R86). -/
def fcrc (bits : List Bool) : Nat := crcOf 24 0x864CFB 0xB704CE bits

/-! ### Native frames (Table 3-1) -/

/-- The fields of a native frame. -/
structure Native where
  pri : Nat
  kind : Nat
  org : Nat
  brs : Bool
  len : Nat
  payload : List Nat
  deriving DecidableEq, Repr

/-- Header bits from SOF through LEN. -/
def Native.header (f : Native) : List Bool :=
  false :: (bitsMsb 11 f.pri ++ bitsMsb 2 f.kind ++ bitsMsb 10 f.org ++ [f.brs] ++ bitsMsb 6 f.len)

def Native.payloadBits (f : Native) : List Bool := f.payload.flatMap (bitsMsb 18)

/-- Bits of FCRC of a frame. -/
def Native.fcrc (f : Native) : Nat := Machine.fcrc (f.header ++ f.payloadBits)

/-- Dynamic stuffing (R81): the bit value of the present run, its length, and the bits still to send. -/
def stuffDyn : Bool → Nat → List Bool → List Bool
  | _, _, [] => []
  | v, n, b :: t =>
    let n' := if b = v then n + 1 else 1
    if n' = 5 then b :: (!b) :: stuffDyn (!b) 1 t else b :: stuffDyn b n' t

/-- Fixed stuffing of the data phase (R82): after every ninth bit, but not after the last. -/
def stuffFix : Nat → List Bool → List Bool
  | _, [] => []
  | _, [b] => [b]
  | n, b :: t => if (n + 1) % 9 = 0 then b :: (!b) :: stuffFix (n + 1) t else b :: stuffFix (n + 1) t

/-- Every bit of a native frame as its sender drives it, stuff bits included, through IFS (Table 3-1). -/
def Native.sent (f : Native) : List Bool :=
  let head := f.header ++ bitsMsb 8 (Machine.hcrc f.header)
  let body := f.payloadBits ++ bitsMsb 24 f.fcrc
  (if f.brs then stuffDyn false 0 head ++ stuffFix 0 body else stuffDyn false 0 (head ++ body)) ++
    List.replicate 13 true

/-- The greatest duration of a native frame in clk (R92). -/
def Native.dmax (brs : Bool) (len tn td : Nat) : Nat :=
  if brs then 60 * tn + (20 * len + 27) * td else (76 + 18 * len + (62 + 18 * len) / 4) * tn

/-- The header words of a native record (Table 7-4). -/
def Native.headerWords (pri kind org : Nat) (brs : Bool) (len : Nat) : List Nat :=
  [pack [(pri, 7), (kind, 5), (b2n brs, 4)], org * 2 ^ 8, len]

/-! ### Header words of a record -/

/-- PRI, KIND, BRS, ORG and LEN of native header words (Table 7-4). -/
def hPri (h1 : Nat) : Nat := bitsOf h1 17 7
def hKind (h1 : Nat) : Nat := bitsOf h1 6 5
def hBrs (h1 : Nat) : Bool := bitOf h1 4
def hOrg (h2 : Nat) : Nat := bitsOf h2 17 8
def hLen (h3 : Nat) : Nat := bitsOf h3 5 0

/-- The fields of compatibility header words (Table 4-2). -/
def cIde (h2 : Nat) : Bool := bitOf h2 6
def cFdf (h2 : Nat) : Bool := bitOf h2 5
def cBrs (h2 : Nat) : Bool := bitOf h2 4
def cRtr (h2 : Nat) : Bool := bitOf h2 2
def cDlc (h3 : Nat) : Nat := bitsOf h3 3 0
/-- ID[28:0] of compatibility header words. -/
def cId (h1 h2 : Nat) : Nat := bitsOf h1 17 0 * 2 ^ 11 + bitsOf h2 17 7

/-- The arbitration key of a compatibility frame (R111). -/
def compatKey (h1 h2 : Nat) : Nat :=
  let id := cId h1 h2
  let rtr := b2n (cRtr h2 && !cFdf h2)
  if cIde h2 then pack [(bitsOf id 28 18, 21), (1, 20), (1, 19), (bitsOf id 17 0, 1), (rtr, 0)]
  else pack [(bitsOf id 28 18, 21), (rtr, 20)]

/-- Bytes that a DLC stands for (Table 4-3). -/
def dlcBytes (fd : Bool) (dlc : Nat) : Nat :=
  if dlc ≤ 8 then dlc
  else if !fd then 8
  else if dlc = 9 then 12 else if dlc = 10 then 16 else if dlc = 11 then 20 else if dlc = 12 then 24
  else if dlc = 13 then 32 else if dlc = 14 then 48 else 64

/-- Payload words that hold a number of bytes (R115). -/
def byteWords (n : Nat) : Nat := (8 * n + 17) / 18

/-- The match key of a frame (R189): the native id, or the arbitration key. -/
def matchKey (compat : Bool) (h1 h2 : Nat) : Nat :=
  if compat then compatKey h1 h2 else pack [(hPri h1, 12), (hKind h1, 10), (hOrg h2, 0)]

/-- Whether a frame is a request or a remote frame (Table 7-3, REQ). -/
def isRequest (compat : Bool) (h1 h2 : Nat) : Bool :=
  if compat then cRtr h2 && !cFdf h2 else hKind h1 == 1

/-- The record of a frame (Table 7-3). -/
def recordOf (compat own : Bool) (h1 h2 h3 : Nat) (stamp : Nat) (payload : List Nat) : List Word :=
  let req := isRequest compat h1 h2
  let pl := if req then [] else payload
  ([pack [(b2n compat, 17), (b2n own, 16), (b2n req, 15), (pl.length, 6)], h1, h2, h3] ++ words 2 stamp ++ pl).map wordOf

namespace State

/-- Nominal bit time of port `n` in clk from its live timing (R126, R149). -/
def nbt (s : State) (n : Nat) : Nat :=
  let c := home n
  (s.rd (F.CL_NBT.BRP c) + 1) * (1 + (s.rd (F.CL_NBT.TSEG1 c) + 1) + (s.rd (F.CL_NBT.TSEG2 c) + 1))

/-- Data bit time of port `n` in clk from its live timing. -/
def dbt (s : State) (n : Nat) : Nat :=
  let c := home n
  (s.rd (F.CL_DBT.BRP_D c) + 1) * (1 + (s.rd (F.CL_DBT.TSEG1_D c) + 1) + (s.rd (F.CL_DBT.TSEG2_D c) + 1))

/-- The origin that the device uses on port `n`: the junior device of a pair applies PAIRXOR (R371). -/
def origin (s : State) (n : Nat) : Nat :=
  let o := s.rd (F.CL_NATIVE.ORIGIN (home n))
  if s.flag F.SP_PAIR.EN && !s.flag F.SP_PSTAT.SENIOR && o != 0x3FF then o ^^^ s.rd F.SP_PAIR.PAIRXOR else o

/-- The partner's origin on port `n` (R371); 0x3FF outside a pair. -/
def partnerOrigin (s : State) (n : Nat) : Nat :=
  let o := s.rd (F.CL_NATIVE.ORIGIN (home n))
  if !s.flag F.SP_PAIR.EN || o == 0x3FF then 0x3FF
  else if s.flag F.SP_PSTAT.SENIOR then o ^^^ s.rd F.SP_PAIR.PAIRXOR else o

end State
end Sys2Proof.Machine
end

