-- ==== Sys2Proof/Machine/Wire.lean ====
section
/-! DEFINITION. The bits of a frame: what a transmitter drives, and what a cell makes of the bits that it samples
(chapters 3, 4 and 6). A list of sampled bits begins with SOF and has every stuff bit in it; `true` is recessive. The
layout of compatibility frames is that of ISO 11898-1:2015 (R106; log entry 18). -/

namespace Sys2Proof.Machine

/-! ### Compatibility frames as their sender drives them (R106, R108) -/

/-- The 18-bit words that hold a bit stream, from bit 17 down; the bits after its end are 0 (R115). -/
def packWords : Nat → List Bool → List Nat
  | 0, _ => []
  | k + 1, l =>
    ((List.range 18).foldl (fun a i => 2 * a + b2n ((l.drop i).headD false)) 0) :: packWords k (l.drop 18)

/-- The first `k` data bits of payload words (R115). -/
def dataBits (k : Nat) (ws : List Nat) : List Bool := (ws.flatMap (bitsMsb 18)).take k

/-- Data bytes that a compatibility frame carries (R116, R117). -/
def Compat.bytes (h2 h3 : Nat) : Nat := if cRtr h2 && !cFdf h2 then 0 else dlcBytes (cFdf h2) (cDlc h3)

/-- Header bits from SOF through DLC. -/
def Compat.header (h1 h2 h3 : Nat) : List Bool :=
  let id := cId h1 h2
  let base := false :: bitsMsb 11 (bitsOf id 28 18)
  let dlc := bitsMsb 4 (cDlc h3)
  let fd := [true, false, cBrs h2, bitOf h2 3]
  let rtr := cRtr h2 && !cFdf h2
  if cIde h2 then
    base ++ [true, true] ++ bitsMsb 18 (bitsOf id 17 0) ++ [rtr] ++ (if cFdf h2 then fd else [false, false]) ++ dlc
  else base ++ [rtr, false] ++ (if cFdf h2 then fd else [false]) ++ dlc

/-- Dynamic stuffing without a stuff bit after the last bit: the data of an FD frame is followed by a fixed one. -/
def stuffOpen : Bool → Nat → List Bool → List Bool
  | _, _, [] => []
  | _, _, [b] => [b]
  | v, n, b :: t =>
    let n' := if b = v then n + 1 else 1
    if n' = 5 then b :: (!b) :: stuffOpen (!b) 1 t else b :: stuffOpen b n' t

/-- The CRC field of an FD frame: a fixed stuff bit before its first bit and after every fourth. -/
def stuffFour : Nat → Bool → List Bool → List Bool
  | _, _, [] => []
  | k, prev, b :: t => (if k % 4 = 0 then [!prev, b] else [b]) ++ stuffFour (k + 1) b t

/-- Stuff count of an FD frame: the number of dynamic stuff bits modulo 8 in Gray code, and its parity bit. -/
def stuffCount (k : Nat) : List Bool :=
  let g := (k % 8) ^^^ (k % 8 / 2)
  let p := g.testBit 2 != (g.testBit 1 != g.testBit 0)
  bitsMsb 3 g ++ [p]

/-- Width of the CRC of a compatibility frame. -/
def Compat.crcWidth (fd : Bool) (bytes : Nat) : Nat := if !fd then 15 else if bytes ≤ 16 then 17 else 21

/-- The CRC of a compatibility frame over the bits that it covers: the unstuffed bits of a classical frame; the bits of
an FD frame with their dynamic stuff bits, and the stuff count. -/
def Compat.crc (w : Nat) (bits : List Bool) : Nat :=
  if w = 15 then crcOf 15 0x4599 0 bits else if w = 17 then crcOf 17 0x1685B 0x10000 bits else crcOf 21 0x102899 0x100000 bits

/-- Every bit of a compatibility frame as its sender drives it, stuff bits included, through intermission. -/
def Compat.sent (h1 h2 h3 : Nat) (payload : List Nat) : List Bool :=
  let n := Compat.bytes h2 h3
  let body := Compat.header h1 h2 h3 ++ dataBits (8 * n) payload
  let w := Compat.crcWidth (cFdf h2) n
  let front :=
    if cFdf h2 then
      let raw := stuffOpen false 0 body
      let sc := stuffCount (raw.length - body.length)
      raw ++ stuffFour 0 (raw.getLastD false) (sc ++ bitsMsb w (Compat.crc w (raw ++ sc)))
    else stuffDyn false 0 (body ++ bitsMsb 15 (Compat.crc 15 body))
  front ++ List.replicate 13 true

/-! ### Scanning a frame -/

/-- What ends the scan of a frame. -/
inductive Verdict
  /-- an error of Table 3-4 or its ISO counterpart: codes of Tables 6-10 and 6-11, POS, whether it was found in the data
  phase, and whether it is the stuff error of Table 6-1, row 6 -/
  | error (ty field pos : Nat) (dph arbStuff : Bool)
  /-- arbitration is lost (R77) -/
  | lost
  /-- a protocol exception (R108) -/
  | exception (pos : Nat)
  /-- a dominant bit that a compatibility cell answers with an overload frame (R109) -/
  | overload
  deriving DecidableEq, Repr

/-- How a cell takes part in a frame. `acks`: a receiver drives the ACK slot of a frame it has received without error;
a transmitter takes a recessive ACK slot for an error (R88, Table 6-7). `fdoe`, `pxhd`: the options of R108. -/
structure Ear where
  compat : Bool
  acks : Bool
  fdoe : Bool
  pxhd : Bool
  deriving DecidableEq, Repr

/-- A scan of the bits of a frame. -/
structure Scan where
  /-- unstuffed bits, newest first, and their number: the position of the newest -/
  bits : List Bool := []
  n : Nat := 0
  /-- the newest bit, the length of its run, and whether the next bit is a stuff bit (R81, R82) -/
  last : Bool := false
  run : Nat := 0
  due : Bool := false
  /-- compatibility: all bits with dynamic stuff bits, newest first, and the number of those -/
  raw : List Bool := []
  stuffs : Nat := 0
  /-- compatibility: extended identifier, FD frame -/
  ext : Bool := false
  fd : Bool := false
  /-- the body is at the data rate -/
  fast : Bool := false
  /-- position of the last header bit, number of payload bits, of bits from the payload's end to the end of the CRC -/
  head : Nat := 0
  data : Nat := 0
  tail : Nat := 0
  /-- the CRC field differs from the CRC received -/
  badCrc : Bool := false
  /-- compatibility: dominant bits taken for the ACK slot -/
  acked : Nat := 0
  /-- the last bit of EOF was sampled dominant (R89) -/
  lastEof : Bool := false
  verdict : Option Verdict := none
  deriving DecidableEq, Repr

namespace Scan

/-- The value of the bits at positions `a` to `b`. -/
def at' (s : Scan) (a b : Nat) : Nat :=
  ((s.bits.drop (s.n - b)).take (b + 1 - a)).foldr (fun x v => 2 * v + b2n x) 0

/-- Position of the last bit of the CRC field; 0 while LEN or DLC has not been received. -/
def crcEnd (s : Scan) : Nat := if s.head = 0 then 0 else s.head + s.data + s.tail

/-- Position of the last bit that arbitrates (R77, R111). -/
def arbEnd (e : Ear) (s : Scan) : Nat := if !e.compat then 24 else if s.ext then 33 else 13

/-- The field of position `n` (Table 6-11). -/
def field (e : Ear) (s : Scan) (n : Nat) : Nat :=
  let c := s.crcEnd
  if n ≤ 1 then 0
  else if n ≤ s.arbEnd e then 1
  else if s.head = 0 then (if !e.compat && 31 < n then 3 else 2)
  else if n ≤ s.head then (if !e.compat && 31 < n then 3 else 2)
  else if n ≤ s.head + s.data then 4
  else if n ≤ c then 5
  else if n = c + 1 then 6
  else if n ≤ c + 3 then 7
  else if n ≤ c + 10 then 8
  else 9

/-- Position `n` lies in the data phase (R84; in compatibility mode the bits after BRS through the CRC delimiter). -/
def inData (e : Ear) (s : Scan) (n : Nat) : Bool :=
  let first := if !e.compat then 40 else if s.ext then 37 else 18
  s.fast && first ≤ n && (s.head = 0 || n ≤ s.crcEnd + 1)

/-- The scan ends with an error at the newest position. -/
def fail (e : Ear) (ty : Nat) (s : Scan) : Scan :=
  { s with verdict := some (.error ty (s.field e s.n) s.n (s.inData e s.n) false) }

/-- A stuff bit `b` is sampled where the cell sends `x`; one equal to the bit before it is a stuff error
(R83). A transmitter that sent it recessive and samples dominant has lost arbitration in a native identifier, and has the
stuff error of Table 6-1, row 6, in a compatibility one. -/
def stuffBit (e : Ear) (s : Scan) (b : Bool) (x : Option Bool) : Scan :=
  let arb := s.n ≤ s.arbEnd e
  if x == some (!b) then
    if arb && !b then
      if e.compat then { s with verdict := some (.error 2 (s.field e s.n) s.n false true) }
      else { s with verdict := some .lost }
    else s.fail e 1
  else if b = s.last then s.fail e 2
  else
    let dyn : Bool := s.head = 0 || (if e.compat then !s.fd || s.n < s.head + s.data else s.n ≤ s.head || !s.fast)
    { s with last := b, run := 1, due := false, raw := if dyn then b :: s.raw else s.raw, stuffs := s.stuffs + b2n dyn }

/-- The run of equal bits after bit `b` of a dynamically stuffed region (R81). -/
def runOn (s : Scan) (b : Bool) : Scan :=
  let r := if b = s.last then s.run + 1 else 1
  { s with last := b, run := r, due := r = 5, raw := b :: s.raw }

/-- Stuffing after the newest bit `b` of a native frame (R81, R82). -/
def nativeStuff (s : Scan) (b : Bool) : Scan :=
  if s.n ≤ 39 || (!s.fast && s.n ≤ s.crcEnd) then s.runOn b
  else { s with last := b, due := s.fast && s.n < s.crcEnd && (s.n - 39) % 9 = 0 }

/-- Stuffing after the newest bit `b` of a compatibility frame. -/
def compatStuff (s : Scan) (b : Bool) : Scan :=
  let dataEnd := s.head + s.data
  if s.head = 0 || (if s.fd then s.n < dataEnd else s.n ≤ s.crcEnd) then s.runOn b
  else if s.fd && s.n = dataEnd then { s with last := b, due := true, raw := b :: s.raw }
  else { s with last := b, due := s.fd && s.n < s.crcEnd && (s.n - dataEnd) % 4 = 0 }

/-- What a native header shows at the newest bit: its form errors (R74), its body, its CRC (R87, Table 3-4). -/
def nativeHeader (e : Ear) (tx : Bool) (s : Scan) : Scan :=
  if s.n = 14 then if s.at' 2 12 = 0 && s.at' 13 14 ≠ 3 then s.fail e 3 else s
  else if s.n = 24 then if s.at' 15 24 = 0x3FF then s.fail e 3 else s
  else if s.n = 25 then { s with fast := s.at' 25 25 = 1 }
  else if s.n = 31 then if 32 < s.at' 26 31 then s.fail e 3 else s
  else if s.n = 39 then
    let s := { s with head := 39, data := if s.at' 13 14 = 1 then 0 else 18 * s.at' 26 31, tail := 24 }
    if !tx && s.at' 32 39 ≠ hcrc (s.bits.drop 8).reverse then { s with fast := false }.fail e 4 else s
  else if s.n = s.crcEnd then
    { s with badCrc := !tx && s.at' (s.n - 23) s.n ≠ fcrc ((s.bits.drop (s.n - 31)).reverse ++ ((s.bits.drop 24).take s.data).reverse) }
  else s

/-- What a compatibility header shows at the newest bit: its format, its options (R108), its body, its CRC (R155). -/
def compatHeader (e : Ear) (tx : Bool) (s : Scan) : Scan :=
  let fdf := if s.ext then 34 else 15
  if s.n = 14 then { s with ext := s.at' 14 14 = 1 }
  else if s.n < 14 then s
  else if s.n = fdf then
    if s.at' fdf fdf = 0 then s else if e.fdoe then { s with fd := true } else s.fail e 3
  else if s.fd && s.n = fdf + 1 then
    if s.at' s.n s.n = 0 then s else if e.pxhd then s.fail e 3 else { s with verdict := some (.exception s.n) }
  else if s.fd && s.n = fdf + 2 then { s with fast := s.at' s.n s.n = 1 }
  else if s.head = 0 && s.n = (if s.fd then fdf + 7 else if s.ext then 39 else 19) then
    let rtr := !s.fd && s.at' (if s.ext then 33 else 13) (if s.ext then 33 else 13) = 1
    let bytes := if rtr then 0 else dlcBytes s.fd (s.at' (s.n - 3) s.n)
    { s with head := s.n, data := 8 * bytes, tail := Compat.crcWidth s.fd bytes + if s.fd then 4 else 0 }
  else if s.head ≠ 0 && s.n = s.crcEnd then
    let w := s.tail - if s.fd then 4 else 0
    let sc := stuffCount s.stuffs
    let ok :=
      if s.fd then
        ((s.bits.drop w).take 4).reverse == sc && s.at' (s.n + 1 - w) s.n == Compat.crc w (s.raw.reverse ++ sc)
      else s.at' (s.n + 1 - w) s.n == Compat.crc 15 (s.bits.drop 15).reverse
    { s with badCrc := !tx && !ok }
  else s

/-- The newest bit is a further bit of a delimiter or of the ACK slot, and takes no position. -/
def extra (s : Scan) : Scan := { s with bits := s.bits.drop 1, n := s.n - 1 }

/-- The newest bit `b` lies behind the CRC field (Table 3-4): delimiters, the ACK slot, EOF and IFS. A receiver that has
found the CRC wrong flags that after the ACK delimiter. In an FD frame a second recessive bit may stand before the ACK, and
the ACK may take two bits (R106: ISO 11898-1:2015; log entry 104). -/
def behind (e : Ear) (tx b : Bool) (s : Scan) : Scan :=
  let k := s.n - s.crcEnd
  if k = 2 then
    if !b then { s with acked := 1 }
    else if tx then (if e.acks && !s.fd then s.fail e 6 else s)
    else if e.acks && !s.badCrc then s.fail e 1 else s
  else if k = 3 && s.fd && !b && s.acked < 2 then { s.extra with acked := s.acked + 1 }
  else if k = 3 && s.fd && b && s.acked = 0 && tx && e.acks then s.extra.fail e 6
  else if k = 3 && b && s.badCrc then
    { s with verdict := some (.error 5 5 s.crcEnd (s.inData e s.crcEnd) false) }
  else if b then s
  else if k ≤ 9 then s.fail e 3
  else if k = 10 then if tx then s.fail e 3 else { s with lastEof := true }
  else if k ≤ 12 then if e.compat then { s with verdict := some .overload } else s.fail e 3
  else s

/-- One sampled bit `b`; `x`: the bit that the cell sends, where it is the transmitter. -/
def step (e : Ear) (s : Scan) (b : Bool) (x : Option Bool) : Scan :=
  if s.verdict.isSome then s
  else if s.due then s.stuffBit e b x
  else
    let s := { s with bits := b :: s.bits, n := s.n + 1 }
    let tx := x.isSome
    let arb := 2 ≤ s.n && s.n ≤ (if e.compat && s.n = 14 then 14 else s.arbEnd e)
    if s.head ≠ 0 && s.crcEnd < s.n then s.behind e tx b
    else if x == some (!b) then (if arb && !b then { s with verdict := some .lost } else s.fail e 1)
    else if e.compat then (s.compatHeader e tx).compatStuff b else (s.nativeHeader e tx).nativeStuff b

/-- The scan of sampled bits; `sent` holds the bits that a transmitter sends, and is empty for a receiver. -/
def run' (e : Ear) : Scan → List Bool → List Bool → Scan
  | s, [], _ => s
  | s, b :: t, [] => run' e (s.step e b none) t []
  | s, b :: t, x :: r => run' e (s.step e b (some x)) t r

/-- The frame has been received without error through the sixth bit of EOF (R89). -/
def valid (s : Scan) : Bool := s.verdict.isNone && s.head ≠ 0 && s.crcEnd + 9 ≤ s.n

/-- No error has been detected through the seventh bit of EOF (R89). -/
def validSent (s : Scan) : Bool := s.verdict.isNone && s.head ≠ 0 && s.crcEnd + 10 ≤ s.n

/-- The identifier of a native header received without error through ORG: PRI and KIND, and ORG (R100). -/
def ident (s : Scan) : Option (Nat × Nat × Nat) :=
  if 25 ≤ s.n || (s.n = 24 && s.verdict.isNone) then some (s.at' 2 12, s.at' 13 14, s.at' 15 24) else none

/-- What a native network frame with PRI 0 shows so far rules a beacon out: its LEN, or the PERIOD of its payload (R93). -/
def noBeacon (s : Scan) : Bool :=
  let word (i : Nat) : Nat := s.at' (40 + 18 * i) (57 + 18 * i)
  let period := word 2 + 2 ^ 18 * (word 3 % 16)
  31 ≤ s.n && (s.at' 26 31 != 4 || (s.head != 0 && 111 ≤ s.n && (period < 6250 || 3200000 < period)))

/-- The frame that a scan has decoded. -/
def frame (e : Ear) (s : Scan) : BusFrame :=
  let pay := ((s.bits.drop (s.n - s.head - s.data)).take s.data).reverse
  if e.compat then
    let base := s.at' 2 12
    let xid := if s.ext then s.at' 15 32 else 0
    let id := base * 2 ^ 18 + xid
    let rtrAt := if s.ext then 33 else 13
    let rtr := b2n (!s.fd) * s.at' rtrAt rtrAt
    let fdf := if s.ext then 34 else 15
    let brs := b2n s.fd * s.at' (fdf + 2) (fdf + 2)
    let esi := b2n s.fd * s.at' (fdf + 3) (fdf + 3)
    let dlc := s.at' (s.head - 3) s.head
    let w := s.tail - if s.fd then 4 else 0
    ⟨id / 2 ^ 11, pack [(id % 2 ^ 11, 7), (b2n s.ext, 6), (b2n s.fd, 5), (brs, 4), (esi, 3), (rtr, 2)],
      pack [(s.data / 8, 4), (dlc, 0)], packWords ((s.data + 17) / 18) pay, s.at' (s.crcEnd + 1 - w) s.crcEnd⟩
  else
    ⟨pack [(s.at' 2 12, 7), (s.at' 13 14, 5), (s.at' 25 25, 4)], s.at' 15 24 * 2 ^ 8, s.at' 26 31,
      packWords (s.data / 18) pay, s.at' (s.crcEnd - 23) s.crcEnd⟩

end Scan

/-! ### After a flag (R90, R109, Table 6-1) -/

/-- What a cell finds in the bits that it samples from the start of its own flag on. -/
inductive FlagEvent
  /-- rows 1 and 4: a bit error in its own active error or overload flag -/
  | bitInFlag
  /-- row 2: dominant in the first bit after the end of its own flag -/
  | domAfterFlag
  /-- row 8: 14 dominant bits after an active flag, 8 after a passive one, or each further 8 -/
  | excessDominant
  /-- compatibility: a dominant bit within the delimiter -/
  | delimiter
  /-- compatibility: a dominant bit in the last bit of the delimiter, or in intermission bit 1 or 2 (R109) -/
  | overload
  /-- native: a dominant bit in IFS bit 1 or 2 -/
  | ifs
  deriving DecidableEq, Repr

/-- A scan of the bits after the start of a flag: the bits of the flag still to come or, for a passive flag, the run of
equal bits; then the dominant bits behind it; then the recessive bits of the delimiter and of IFS. -/
structure FlagScan where
  flag : Nat := 0
  last : Bool := true
  ended : Bool := false
  dom : Nat := 0
  recessive : Nat := 0
  event : Option FlagEvent := none
  deriving DecidableEq, Repr

/-- One bit after the start of a flag. `event` is what this bit brings. -/
def FlagScan.step (compat passive : Bool) (s : FlagScan) (b : Bool) : FlagScan :=
  let s := { s with event := none }
  if !s.ended then
    if passive then
      let r := if s.flag = 0 || b = s.last then s.flag + 1 else 1
      { s with flag := r, last := b, ended := r = 6 }
    else if b then { s with event := some .bitInFlag, flag := 0 }
    else { s with flag := s.flag + 1, ended := s.flag + 1 = 6 }
  else if s.recessive = 0 then
    if b then { s with recessive := 1 }
    else
      let d := s.dom + 1
      let first := if passive then 8 else 14
      { s with dom := d, event := if first ≤ d && (d - first) % 8 = 0 then some .excessDominant
          else if d = 1 then some .domAfterFlag else none }
  else if b then { s with recessive := s.recessive + 1 }
  else if s.recessive < 8 then
    if !compat then { s with recessive := s.recessive + 1 }
    else { s with event := some (if s.recessive = 7 then .overload else .delimiter) }
  else if s.recessive ≤ 9 then { s with event := some (if compat then .overload else .ifs) }
  else s

/-- The delimiter is complete: a recessive bit and 7 further ones (R90). -/
def FlagScan.closed (s : FlagScan) : Bool := 8 ≤ s.recessive

/-- The scan of the bits from the start of a flag. -/
def flagScan (compat passive : Bool) (bits : List Bool) : FlagScan := bits.foldl (FlagScan.step compat passive) {}

end Sys2Proof.Machine
end

