-- ==== Sys2Proof/Machine/Cells.lean ====
section
/-! DEFINITION. Cells: error confinement, recovery, solitude, the clash monitors (chapter 6), the choice and fetch of
the frame to send (R202 to R205) and acceptance (R189). -/

namespace Sys2Proof.Machine
namespace State

/-- A rate search is in MEASURE or TRY on the cell (R144). -/
def searching (s : State) (c : Nat) : Bool :=
  s.rd (F.CL_ARSTAT.STATE c) == 1 || s.rd (F.CL_ARSTAT.STATE c) == 2

/-- How a cell on the bus of port `n` takes part in a frame (R88, R108). -/
def ear (s : State) (n : Nat) (acks : Bool) : Ear :=
  ⟨s.compat n, acks, s.flag (F.CL_COMPAT.FDOE (home n)), s.flag (F.CL_COMPAT.PXHD (home n))⟩

/-- The cell that serves port `n` behaves as in listen mode: QUIET overrides CL_OPMODE.TEST (R316). -/
def listens (s : State) (n : Nat) : Bool := s.testMode n == 1

/-- The error counters of a cell stand still (Table 6-1, row 12). -/
def frozen (s : State) (c n : Nat) : Bool := s.testMode n != 0 || s.searching c

def tec (s : State) (c : Nat) : Nat := s.rd (F.CL_ECNT.TEC c)
def rec' (s : State) (c : Nat) : Nat := s.rd (F.CL_ECNT.REC c)
def conf (s : State) (c : Nat) : Nat := s.rd (F.CL_STATUS.CONF c)

/-- Recovery counting has begun, where its clk has come (R158). -/
def counted (c : Nat) (s : State) : State :=
  match (s.cell c).countAt with
  | some k =>
    if k ≤ s.clk then
      (((s.modCell c fun C => { C with countAt := none }).wr (F.CL_STATUS.RECOV c) 3).wr (F.CL_STATUS.SEQCNT c) 0).wr
        (F.CL_STATUS.LASTEV c) 0x05
    else s
  | none => s

/-- Posts a class 0x04 event (Table 6-12) and records its code in LASTEV. -/
def cellEvent (c code : Nat) (rest : List Nat) (s : State) : State :=
  let s := s.counted c
  (s.wr (F.CL_STATUS.LASTEV c) code).post 0x04 code c
    ([pack [(s.conf c, 16), (s.rd (F.CL_STATUS.EWARN c), 15), (c, 0)], pack [(s.tec c, 8), (s.rec' c, 0)]] ++ rest)

/-- ACKRUN is set to 0, which ends ALONE with event 0x08 (R164, R166). -/
def clearAckrun (c : Nat) (s : State) : State :=
  let s := s.wr (F.CL_SOLO.ACKRUN c) 0
  if s.flag (F.CL_STATUS.ALONE c) then (s.wr (F.CL_STATUS.ALONE c) 0).cellEvent c 0x08 [] else s

/-- Recovery counting begins in the next clk (R158, Table 6-4), with a cause of event 0x05 (Table 6-12). -/
def beginCounting (c cause : Nat) (s : State) : State :=
  (s.modCell c fun C => { C with countAt := some (s.clk + 1) }).postAt (s.now + 1) 0x04 0x05 c
    [pack [(s.conf c, 16), (s.rd (F.CL_STATUS.EWARN c), 15), (c, 0)], pack [(s.tec c, 8), (s.rec' c, 0)], cause]

/-- A cell in BUS_OFF waits for a release or for DELAY boundaries (Table 6-5). -/
def awaitsRelease (s : State) (c : Nat) : Bool :=
  (s.cell c).countAt.isNone && (s.rd (F.CL_STATUS.RECOV c) == 1 || s.rd (F.CL_STATUS.RECOV c) == 2)

/-- The attempt of a cell ends: the frame on the bus is gone, and a retry fetches it again; RETRY clears (R203, R165).
A frame of another source that was fetched meanwhile stays ready. -/
def endAttempt (c : Nat) (s : State) : State :=
  (s.modCell c fun C => { C with attempt := none }).wr (F.CL_ERRCTRL.RETRY c) 0

/-- The cell enters BUS_OFF (Table 6-3): `ty` and `fl` name the error that caused it. -/
def busOff (c n ty fl : Nat) (s : State) : State :=
  let s := (s.wr (F.CL_ECNT.TEC c) 256).wr (F.CL_STATUS.CONF c) 3
  let warned := s.flag (F.CL_STATUS.EWARN c)
  let s := (s.wr (F.CL_STATUS.EWARN c) 1).bump (F.CL_ERRCNTB.BUSOFF c)
  let s := onlyIf (!warned) (·.cellEvent c 0x01 []) s
  let s := s.cellEvent c 0x04 [pack [(ty, 14), (fl, 10)]]
  let s := (s.clearAckrun c).endAttempt c
  let s := s.modCell c fun C => { C with flag := [], rxSof := none, recDelay := 0, offAt := s.clk, stopped := false, resynced := false }
  let mode := s.rd (F.CL_ERRCTRL.RECMODE (home n))
  if mode = 1 then s.wr (F.CL_STATUS.RECOV c) 1
  else if mode = 2 then s.wr (F.CL_STATUS.RECOV c) 2
  else s.beginCounting c 0

/-- EWARN and the state between ERROR_ACTIVE and ERROR_PASSIVE follow the counters (R157, Table 6-3). -/
def refreshConf (c : Nat) (s : State) : State :=
  let warn := 96 ≤ s.tec c || 96 ≤ s.rec' c
  let passive := 128 ≤ s.tec c || 128 ≤ s.rec' c
  let was := s.flag (F.CL_STATUS.EWARN c)
  let cf := s.conf c
  let s := s.wr (F.CL_STATUS.EWARN c) (b2n warn)
  let s := if cf = 1 && passive then s.wr (F.CL_STATUS.CONF c) 2
    else if cf = 2 && !passive then s.wr (F.CL_STATUS.CONF c) 1 else s
  let s := onlyIf (warn && !was) (·.cellEvent c 0x01 []) s
  if cf = 1 && passive then s.cellEvent c 0x02 []
  else if cf = 2 && !passive then s.cellEvent c 0x03 [] else s

/-- An error adds to TEC and REC (R153, R156). -/
def addErrors (c n dT dR ty fl : Nat) (s : State) : State :=
  if s.frozen c n || s.conf c == 3 then s
  else if 0 < dT && 256 ≤ s.tec c + dT && s.conf c != 0 then s.busOff c n ty fl
  else
    ((s.wr (F.CL_ECNT.TEC c) (min (s.tec c + dT) 256)).wr (F.CL_ECNT.REC c) (min (s.rec' c + dR) 255)).refreshConf c

/-- Row 9 of Table 6-1: a frame became valid for the transmitter. -/
def sentOk (c n : Nat) (s : State) : State :=
  if s.frozen c n then s else (s.wr (F.CL_ECNT.TEC c) (s.tec c - 1)).refreshConf c

/-- Row 10 of Table 6-1: a frame became valid for a receiver that drove the ACK slot. -/
def receivedOk (c n : Nat) (s : State) : State :=
  if s.frozen c n then s
  else (s.wr (F.CL_ECNT.REC c) (if 127 < s.rec' c then 120 else s.rec' c - 1)).refreshConf c

/-- Captures an error and counts it by type (Tables 6-9e to 6-9g). -/
def captureError (c ty : Nat) (tx : Bool) (dph : Bool) (pos field : Nat) (s : State) : State :=
  let s := ((((((s.wr (F.CL_ERRCAP.TYPE c) ty).wr (F.CL_ERRCAP.ROLE c) (b2n tx)).wr (F.CL_ERRCAP.DPH c) (b2n dph)).wr
    (F.CL_ERRCAP.POS c) pos).wr (F.CL_ERRCAP.FIELD c) field).raise (F.CL_ERRCAP.NEW c))
  let s := if ty = 1 then s.bump (F.CL_ERRCNTA.BIT c) else if ty = 2 then s.bump (F.CL_ERRCNTA.STUFF c)
    else if ty = 3 then s.bump (F.CL_ERRCNTA.FORM c) else if ty = 4 || ty = 5 then s.bump (F.CL_ERRCNTA.CRC c)
    else if ty = 6 then s.bump (F.CL_ERRCNTB.ACK c) else if ty = 7 then s.bump (F.CL_ERRCNTB.DOMX c) else s
  onlyIf dph (·.bump (F.CL_ERRCNTB.DATAPH c)) s

/-- The cell starts an error or overload flag in its confinement state (R90, R109). -/
def startFlag (c : Nat) (tx overload : Bool) (s : State) : State :=
  let recessive := s.conf c == 2 && !overload
  s.modCell c fun C => { C with flag := List.replicate 6 recessive, flagTx := tx, flagOvl := overload, rxSof := none, sentLast := false }

/-- An own transmission ends in an ACK error (R164). -/
def countAck (c : Nat) (s : State) : State :=
  let s := s.bump (F.CL_SOLO.ACKRUN c)
  if s.rd (F.CL_SOLO.ACKRUN c) = 32 && !s.flag (F.CL_STATUS.ALONE c) then
    ((s.wr (F.CL_STATUS.ALONE c) 1).bump (F.CL_SOLO.ENTRIES c)).cellEvent c 0x07 [32]
  else s

/-! ### Clash monitors (R167 to R171) -/

/-- Suspends a buffer after a clash report; the cell writes S0.SUSP in its first access (R171, R185). -/
def suspend (n d : Nat) (s : State) : State :=
  if s.suspended n d then s
  else
    let s := s.modPort n fun P => { P with susp := P.susp ++ [d] }
    let s := (s.setS0 n d 13 13 1).grant (s.servingCell n)
    s.modCell (s.servingCell n) fun C =>
      match C.ready with
      | some f => if f.src = .buffer d then { C with ready := none } else C
      | none => C

/-- PRI and KIND of the header that a transmit buffer holds. -/
def txPri (s : State) (n d : Nat) : Nat := hPri (s.txWord n d 1)
def txKind (s : State) (n d : Nat) : Nat := hKind (s.txWord n d 1)

/-- A native clash report (R170, R171): `target` is the receive buffer that the frame's filter named. -/
def reportClash (c n pri kind orgA orgB : Nat) (target : Option Nat) (s : State) : State :=
  let s := s.bump (F.CL_CLASHLOG0.COUNT c)
  let s := ((s.wr (F.CL_CLASHLOG0.KIND c) kind).wr (F.CL_CLASHLOG0.PRI c) pri).wr (F.CL_CLASHLOG1.IDENT c)
    (pack [(orgA, 10), (orgB, 0)])
  let s := match target with
    | some d => onlyIf ((s.desc n d).isRx && (s.desc n d).csusp) (·.suspend n d) s
    | none => s
  let s := each (s.txBuffers n) (fun d s =>
    onlyIf ((s.desc n d).csusp && s.txPri n d == pri && s.txKind n d == kind) (·.suspend n d) s) s
  if (pri, kind) ∈ (s.cell c).clashSeen then s
  else (s.modCell c fun C => { C with clashSeen := (pri, kind) :: C.clashSeen }).cellEvent c 0x09
    [pack [(kind, 16), (pri, 0)], orgA, orgB]

/-- The payload digest of the clash monitor (R167): over the LEN bits and the payload bits. -/
def clashDigest (len : Nat) (payload : List Nat) : Nat := fcrc (bitsMsb 6 len ++ payload.flatMap (bitsMsb 18))

/-- The native clash monitor takes a valid frame (R167). -/
def clashFrame (c n : Nat) (pri kind org len : Nat) (payload : List Nat) (target : Option Nat) (s : State) : State :=
  let h := home n
  let on := s.flag (F.CL_CLASHCTL.EN h) && s.rd (F.CL_CLASHCTL.PRI_LO h) ≤ pri &&
    pri ≤ s.rd (F.CL_CLASHCTL.PRI_HI h) && (pri == 0 || bitOf (s.rd (F.CL_CLASHCTL.KMASK h)) kind) &&
    s.testMode n ≤ 1 && !s.searching c
  if !on then s
  else
    let dg := clashDigest len payload
    let mem := (s.cell c).clash
    let s := match mem.find? fun e => e.pri == pri && e.kind == kind && e.org != org && e.digest != dg with
      | some e => s.reportClash c n pri kind e.org org target
      | none => s
    if mem.any fun e => e.pri == pri && e.kind == kind && e.org == org then s
    else if mem.length < 32 then s.modCell c fun C => { C with clash := C.clash ++ [⟨pri, kind, org, dg⟩] }
    else s.bump (F.CL_CLASHLOG0.OVF c)

/-- An attempt of a buffer on a compatibility port ended (R169): in an own bit error of the control or data field,
or otherwise. -/
def clashAttempt (c n d : Nat) (bitError : Bool) (s : State) : State :=
  if !s.compat n || !s.flag (F.CL_CLASHCTL.EN (home n)) || s.testMode n != 0 then s
  else if !bitError then s.modCell c fun C => { C with clashRun := Sparse.del C.clashRun d }
  else
    let k := Sparse.get 0 (s.cell c).clashRun d + 1
    if k < 3 then s.modCell c fun C => { C with clashRun := Sparse.put 0 C.clashRun d k }
    else
      let key := compatKey (s.txWord n d 1) (s.txWord n d 2)
      let s := s.modCell c fun C => { C with clashRun := Sparse.del C.clashRun d }
      let s := (s.bump (F.CL_CLASHLOG0.COUNT c)).wr (F.CL_CLASHLOG1.IDENT c) key
      let s := onlyIf (s.desc n d).csusp (·.suspend n d) s
      s.cellEvent c 0x0A (words 2 key ++ [d])

/-! ### Acceptance (R189) -/

/-- The filters of port `n` that are listed, in ascending order. -/
def filters (s : State) (n : Nat) : List Nat :=
  ((Sparse.range s.regs (filtKey n 0 0) (filtKey n 64 0)).filter (fun e => (e.1 - filtKey n 0 0) % 6 == 0)).map
    (fun e => (e.1 - filtKey n 0 0) / 6)

def filtMode (s : State) (n f : Nat) : Nat := bitsOf (s.rdK (filtKey n f 0)) 17 16
def filtDtype (s : State) (n f : Nat) : Nat := bitsOf (s.rdK (filtKey n f 0)) 15 14
def filtBuf (s : State) (n f : Nat) : Nat := bitsOf (s.rdK (filtKey n f 0)) 13 7
def filtA (s : State) (n f : Nat) : Nat := (s.rdK (filtKey n f 2) + 2 ^ 18 * s.rdK (filtKey n f 3)) % 2 ^ 32
def filtB (s : State) (n f : Nat) : Nat := (s.rdK (filtKey n f 4) + 2 ^ 18 * s.rdK (filtKey n f 5)) % 2 ^ 32

/-- Whether a filter matches a key. -/
def filtHit (s : State) (n f id : Nat) : Bool :=
  let a := s.filtA n f
  let b := s.filtB n f
  match s.filtMode n f with
  | 1 => id == a
  | 2 => (id ^^^ a) &&& b == 0
  | 3 => a ≤ id && id ≤ b
  | _ => false

/-- The first filter that matches. -/
def matchFilter (s : State) (n id : Nat) : Option Nat := (s.filters n).find? fun f => s.filtHit n f id

/-- The receive buffer that the first matching filter names, if any. -/
def targetBuffer (s : State) (n id : Nat) : Option Nat :=
  match s.matchFilter n id with
  | some f => if s.filtDtype n f = 0 then some (s.filtBuf n f) else none
  | none => none

/-- A frame takes the destination of its filter: a store or a push falls due (R189 to R191). -/
def accept (c n id : Nat) (rec : List Word) (s : State) : State :=
  match s.matchFilter n id with
  | none => s.bump (F.CL_FILTCNT.NOMATCH c)
  | some f =>
    match s.filtDtype n f with
    | 3 => s.bump (F.CL_FILTCNT.DISCARD c)
    | 0 => s.modCell c fun C => { C with due := C.due ++ [⟨.buffer (s.filtBuf n f), rec⟩] }
    | q => s.modCell c fun C => { C with due := C.due ++ [⟨.queue (qid n (q - 1)), rec⟩] }

/-! ### The frame to send (R202, R203, R205, R229) -/

/-- The order key of a frame with these header words (R79, R112, R202), with its rank among frames of equal key. -/
def orderKey (s : State) (n h1 h2 rank : Nat) : Nat :=
  (if s.compat n then compatKey h1 h2 else pack [(hPri h1, 2), (hKind h1, 0)]) * 256 + rank

/-- The head packet of the transmit queue of a port. -/
def tqHead (s : State) (n : Nat) : List QWord := Queue.head (s.queue (qid n 2)).vis

/-- A device that a switchover has made active sends only beacons and what the host releases until its EMIT (R380); a packet
of a transmit queue is the host's (log entry 120). -/
def mayOffer (s : State) (n : Nat) (src : TxSource) : Bool :=
  match s.pair.preEmit, src with
  | some l, .buffer d => l.contains (n, d)
  | some _, .network => false
  | _, _ => true

/-- The frames that a cell may offer for port `n`, with their order keys: pending buffers that are not suspended,
the transmit queue's head packet, the network slot (R202, R330). -/
def candidates (s : State) (n : Nat) : List (Nat × TxSource) :=
  let bufs := ((s.port n).pend.filter fun d => !s.suspended n d).map fun d =>
    (s.orderKey n (s.txWord n d 1) (s.txWord n d 2) d, TxSource.buffer d)
  let h := s.tqHead n
  let tq := if h = [] then [] else
    [(s.orderKey n ((h.drop 1).headD ⟨0, false, none⟩).word.toNat ((h.drop 2).headD ⟨0, false, none⟩).word.toNat 128,
      TxSource.tq)]
  let net := match (s.port n).net with
    | some f => if s.compat n then [] else [(pack [(f.pri, 2), (3, 0)] * 256 + 129, TxSource.network)]
    | none => []
  (bufs ++ tq ++ net).filter fun e => s.mayOffer n e.2

/-- The first candidate in order, but for the frame on the bus. -/
def firstCandidate (s : State) (c n : Nat) : Option TxSource :=
  let sending := (s.cell c).attempt.map (·.frame.src)
  (((s.candidates n).filter fun e => some e.2 != sending).foldl (fun (a : Option (Nat × TxSource)) e =>
    match a with
    | some b => if e.1 < b.1 then some e else a
    | none => some e) none).map (·.2)

/-- Payload words that a record's frame carries: none in a request or a remote frame (R183). -/
def carried (s : State) (n : Nat) (w : List Nat) : Nat :=
  let h1 := (w.drop 1).headD 0
  let h2 := (w.drop 2).headD 0
  let h3 := (w.drop 3).headD 0
  if isRequest (s.compat n) h1 h2 then 0
  else if s.compat n then byteWords (dlcBytes (cFdf h2) (cDlc h3)) else hLen h3

/-- Whether a record may be sent (R205): its LEN is at most 32 and its capacity, and no header value is reserved. -/
def recordOk (s : State) (n cap : Nat) (w : List Nat) : Bool :=
  let h2 := (w.drop 2).headD 0
  let h3 := (w.drop 3).headD 0
  if s.compat n then
    !(cRtr h2 && cFdf h2) && byteWords (dlcBytes (cFdf h2) (cDlc h3)) ≤ cap
  else hLen h3 ≤ 32 && hLen h3 ≤ cap

/-- Discards the head packet of a transmit queue at fetch (R229) with a cause of event 0x05. -/
def discardTq (n cause : Nat) (s : State) : State :=
  let q := qid n 2
  let plen := plenOf ((s.tqHead n).headD ⟨0, false, none⟩).word.toNat
  ((s.dropPacket q).2.bump (F.QCNT.BADPKT q)).queueEvent q 0x05 cause [plen]

/-- The cells of its block that port A's rotation considers before cell `c`, in order (R23). -/
def rotationBefore (s : State) (c : Nat) : List Nat :=
  (((List.range 9).map fun k => ((s.block (c / 9)).lastGrant + 1 + k) % 9).takeWhile (· != c % 9)).map (c / 9 * 9 + ·)

/-- A fetch claims its source (R203): a buffer under a hold or a transfer abandons it. -/
def claimFetch (c n : Nat) (s : State) : State :=
  match s.firstCandidate c n with
  | none => s
  | some (.buffer d) =>
    if s.held n d || s.xbusy n d then s
    else ((s.setS0 n d 17 17 1).grant c).modCell c fun C => { C with fetch := some (.buffer d) }
  | some .tq => (s.grant c).modCell c fun C => { C with fetch := some .tq }
  | some src => s.modCell c fun C => { C with fetch := some src }

/-- A fetch in progress ends: the frame becomes the ready frame, or a bad one is withdrawn or discarded. -/
def closeFetch (c n : Nat) (s : State) : State :=
  let s' := s.modCell c fun C => { C with fetch := none }
  match (s.cell c).fetch with
  | some (.buffer d) =>
    let s' := (s'.setS0 n d 17 17 0).grant c
    let D := s.desc n d
    let w := s.ramList (n / 8) (s.txRecord n d) (6 + min D.capacity 32)
    if !(s.port n).pend.contains d || s.suspended n d then s'
    else if s.recordOk n D.capacity (w.map (·.toNat)) then s'.modCell c fun C => { C with ready := some ⟨.buffer d, w⟩ }
    else s'.withdraw n d 2
  | some .tq =>
    let s' := s'.grant c
    let h := s.tqHead n
    let w := h.map (·.word)
    let w0 := (w.headD 0).toNat
    if h = [] then s'
    else if h.any (·.bad.isSome) then s'.discardTq n 2
    else if bitOf w0 17 != s.compat n then s'.discardTq n 0
    else if !s.recordOk n 32 (w.map (·.toNat)) || h.length - 6 < s.carried n (w.map (·.toNat)) then s'.discardTq n 1
    else s'.modCell c fun C => { C with ready := some ⟨.tq, w⟩ }
  | some .network =>
    match (s.port n).net with
    | some f =>
      let w := recordOf false false (pack [(f.pri, 7), (3, 5)]) (s.origin n * 256) f.payload.length 0
        (f.payload.map (·.toNat))
      s'.modCell c fun C => { C with ready := some ⟨.network, w⟩ }
    | none => s'
  | _ => s'

/-! ### Resets of a cell -/

/-- A packet that a cell has begun to push is rewound where the cell is replaced or reset (R224, cause 0x4). -/
def dropPush (c : Nat) (s : State) : State :=
  match (s.cell c).pushing with
  | some p => (s.rewindOpen p.1 4 false).modCell c fun C => { C with pushing := none }
  | none => s

/-- A cell leaves reset: counters, confinement state, transceiver delay, beacon and rate search status at their reset
values; error captures and counts by type stay (R152, R317; log entry 12), and so does an isolation (R349). -/
def resetCell (c : Nat) (s : State) : State :=
  let z := [F.CL_ECNT.TEC c, F.CL_ECNT.REC c, F.CL_STATUS.CONF c, F.CL_STATUS.RECOV c, F.CL_STATUS.SEQCNT c,
    F.CL_STATUS.ALONE c, F.CL_STATUS.EWARN c, F.CL_SOLO.ACKRUN c, F.CL_TDCSTAT.VALID c, F.CL_TDCSTAT.CLAMP c,
    F.CL_TDCSTAT.TDCV c, F.CL_ERRCTRL.RETRY c, F.CL_BCNSTAT.WIN c, F.CL_BCNSTAT.BAND c, F.CL_BCNSTAT.WINOPEN c,
    F.CL_BCNSTAT.SELF c, F.CL_BCNSTAT.MASTER c, F.CL_ARSTAT.TMIN c, F.CL_ARSTAT.GOOD c, F.CL_ARSTAT.PASS c,
    F.CL_ARSTAT.CAND c, F.CL_ARSTAT.STATE c]
  let s := each z (fun f s => s.wr f f.reset) (s.dropPush c)
  s.modCell c fun C => { isolated := C.isolated }

/-- The cell integrates anew (Table 6-3): after a mode or timing change on the bus, or when its port leaves a sleep
state. A cell in BUS_OFF stays there, with SEQCNT at 0. -/
def integrate (c : Nat) (s : State) : State :=
  if s.conf c = 3 then s.wr (F.CL_STATUS.SEQCNT c) 0
  else ((s.wr (F.CL_STATUS.CONF c) 0).modCell c fun C => { C with rxSof := none, flag := [], stopped := false, sentLast := false, resynced := false }).clearAckrun c

end State
end Sys2Proof.Machine
end

