-- ==== Sys2Proof/Machine/Rate.lean ====
section
/-! DEFINITION. Automatic rate detection (R143 to R151): the transitions of Table 5-6. -/

namespace Sys2Proof.Machine

/-- Bit time in clk of a candidate's nominal timing, laid out as CL_NBT (Tables 5-7a and 5-7g). -/
def nominalClk (v : Nat) : Nat := (bitsOf v 27 22 + 1) * (1 + (bitsOf v 21 14 + 1) + (bitsOf v 13 7 + 1))

/-- Bit time in clk of a candidate's data timing, laid out as CL_DBT. -/
def dataClk (v : Nat) : Nat := (bitsOf v 17 13 + 1) * (1 + (bitsOf v 12 8 + 1) + (bitsOf v 7 4 + 1))

namespace State

/-- The state of the rate search of a cell (Table 5-5). -/
def arState (s : State) (c : Nat) : Nat := s.rd (F.CL_ARSTAT.STATE c)

/-- Writes a rate search event (Table 5-8). -/
def rateEvent (c code : Nat) (rest : List Nat) (s : State) : State :=
  s.post 0x05 code c ([pack [(s.rd (F.CL_ARSTAT.CAND c), 14), (s.rd (F.CL_ARSTAT.PASS c), 10), (c, 0)],
    s.rd (F.CL_ARSTAT.TMIN c)] ++ rest)

/-- The candidates that are eligible for a shortest interval, in index order (R145). -/
def rateEligible (s : State) (c tmin : Nat) : List Nat :=
  let h := s.cfg c
  (List.range 16).filter fun k => s.flag (F.CL_ARCANDN.VALID h k) &&
    32 * min (nominalClk (s.rd (F.CL_ARCANDN.NBT h k))) (dataClk (s.rd (F.CL_ARCANDD.DBT h k))) ≤ 33 * (tmin + 1)

/-- A search starts (Table 5-6, first row). -/
def rateStart (c : Nat) (s : State) : State :=
  let s := (((s.wr (F.CL_ARSTAT.STATE c) 1).wr (F.CL_ARSTAT.PASS c) 1).wr (F.CL_ARSTAT.TMIN c) 0xFFFF).wr (F.CL_ARSTAT.GOOD c) 0
  s.modCell c fun C => { C with arDwell := 0, arLeft := [], rxSof := none, stopped := false }

/-- A pass ends: another one starts, or the search has failed (Table 5-6, last two rows). -/
def ratePassEnd (c : Nat) (s : State) : State :=
  let passes := s.rd (F.CL_ARCTRL.PASSES (s.cfg c))
  let pass := s.rd (F.CL_ARSTAT.PASS c)
  let s := s.modCell c fun C => { C with arDwell := 0, arLeft := [] }
  if passes = 0 || pass < passes then
    ((s.wr (F.CL_ARSTAT.STATE c) 1).wr (F.CL_ARSTAT.PASS c) (min (pass + 1) 15)).wr (F.CL_ARSTAT.TMIN c) 0xFFFF
  else (s.wr (F.CL_ARSTAT.STATE c) 4).rateEvent c 0x02 []

/-- The trial of the next eligible candidate begins; after the last one the pass ends. A frame that is in progress then can
count for that candidate (DESIGN CHOICE, log entry 105). -/
def rateNext (c : Nat) (s : State) : State :=
  match (s.cell c).arLeft with
  | [] => s.ratePassEnd c
  | k :: t =>
    let s := ((s.wr (F.CL_ARSTAT.STATE c) 2).wr (F.CL_ARSTAT.CAND c) k).wr (F.CL_ARSTAT.GOOD c) 0
    s.modCell c fun C => { C with arLeft := t, arDwell := 0 }

/-- A frame is received without error in a trial (R146, R147). -/
def rateGood (c : Nat) (s : State) : State :=
  let h := s.cfg c
  let s := s.wr (F.CL_ARSTAT.GOOD c) (s.rd (F.CL_ARSTAT.GOOD c) + 1)
  if s.rd (F.CL_ARSTAT.GOOD c) < s.rd (F.CL_ARCTRL.NEEDED h) then s
  else
    let k := s.rd (F.CL_ARSTAT.CAND c)
    (s.wr (F.CL_ARSTAT.STATE c) 3).rateEvent c 0x01
      [nominalClk (s.rd (F.CL_ARCANDN.NBT h k)), dataClk (s.rd (F.CL_ARCANDD.DBT h k))]

/-- A search in MEASURE or TRY is aborted (Table 5-6): event 0x03. -/
def rateAbort (c : Nat) (s : State) : State :=
  if s.searching c then (s.wr (F.CL_ARSTAT.STATE c) 5).rateEvent c 0x03 [] else s

/-- A found rate is given up: CAND and TMIN keep their values (Table 5-6). -/
def rateEnd (c : Nat) (s : State) : State := if s.arState c = 3 then s.wr (F.CL_ARSTAT.STATE c) 0 else s

/-- Listen mode ends (Table 5-6): a search in MEASURE or TRY is aborted, and a found rate is given up. -/
def rateStop (c : Nat) (s : State) : State := (s.rateAbort c).rateEnd c

end State

/-! ### The commands -/

/-- RATE_MEASURE_DONE (R145): 256 intervals are counted, the shortest of `tmin` clk. Intervals below GLITCH or above
20,000 clk are not counted. -/
def execRateMeasureDone (c : CellId) (tmin : BitVec 16) (s : State) : Outcome :=
  ready s fun s =>
    if s.arState c ≠ 1 || tmin.toNat < s.rd (F.CL_ARCTRL.GLITCH (s.cfg c)) || 20000 < tmin.toNat then s
    else
      let s := s.wr (F.CL_ARSTAT.TMIN c) tmin.toNat
      let ks := s.rateEligible c tmin.toNat
      (s.modCell c fun C => { C with arLeft := ks }).rateNext c

/-- RATE_DWELL_EXPIRY (R146, R147): DWELL boundaries without 256 intervals, or without a declaration. -/
def execRateDwellExpiry (c : CellId) (s : State) : Outcome :=
  ready s fun s =>
    if !s.searching c || (s.cell c).arDwell < s.rd (F.CL_ARCTRL.DWELL (s.cfg c)) then s
    else if s.arState c = 1 then s.ratePassEnd c else s.rateNext c

end Sys2Proof.Machine
end

