-- ==== Sys2Proof/Machine/Flags.lean ====
section
/-! DEFINITION. Flags that several units raise and clear: SYS_FAULT and the interrupt lines (R429 to R431), the
eligibility of a pair (R376), the events of classes 0x0C and 0x0D, and the live list of the wear ledger (R366). -/

namespace Sys2Proof.Machine
namespace State

/-! ### Interrupt lines (Table 15-7) -/

/-- A queue with QCTL.NIRQ = 1 has a notice set (R235). -/
def queueNotice (s : State) : Bool :=
  (((List.range 0x1B0).filter fun q => q % 4 != 3) ++ [0x200, 0x201, 0x202, 0x203, 0x210, 0x211, 0x212]).any fun q =>
    s.flag (F.QCTL.NIRQ q) && (s.flag (F.QMON.HNOT q) || s.flag (F.QMON.LNOT q))

/-- SYS_FAULT has a bit at 1. -/
def faulted (s : State) : Bool :=
  s.flag F.SYS_FAULT.CHIP || s.flag F.SYS_FAULT.NOLANE || s.flag F.SYS_FAULT.UNSERVED || s.flag F.SYS_FAULT.PWR

/-- RAW of HP_IRQSTAT: bit k is the condition of line k (R429). -/
def irqRaw (s : State) : Nat :=
  pack [(b2n (0 < (s.queue qReply).packets), 0), (b2n (0 < (s.queue qEvent).packets), 1),
    (b2n s.queueNotice, 2), (b2n s.faulted, 3)]

/-- PEND of HP_IRQSTAT: the lines that are low (R429). -/
def irqPend (s : State) : Nat := s.irqRaw &&& s.rd F.HP_IRQEN.EN

/-- The level of the pin IRQ_N[k], `none` for high impedance: during a reset no line is driven (R428, R448); afterwards a
line is low while PEND holds its bit, and else high, or released with IRQOD = 1 (R429, R430). -/
def irqPin (s : State) (k : Nat) : Option Bool :=
  if s.power.phase = .inReset then none
  else if s.irqPend.testBit k then some false
  else if s.flag F.HP_CTRL.IRQOD then none
  else some true

/-! ### Pair events and eligibility (R376, R386) -/

/-- Writes an event of class 0x0D (Table 13-12). -/
def pairEvent (code : Nat) (rest : List Nat) (s : State) : State :=
  s.post 0x0D code 0 (pack [(s.rd F.SP_PSTAT.ROLE, 16), (s.rd F.SP_PSTAT.ELIG, 15), (s.rd F.SP_PSTAT.NCAUSE % 8, 12)] ::
    words 2 s.tickNo ++ rest)

/-- The power state that the device reports of a port: the one that a change which the next boundary, or a frame boundary,
makes will leave (R372). -/
def stateAhead (s : State) (n : Nat) : Nat :=
  let P := s.port n
  let entering : Bool := match P.round with
    | some r => s.rd (F.PW_PSTAT.RGROUP n) == 0x3F && (match r.sdly with | some k => decide (k ≤ 1) | none => false)
    | none => false
  match P.powerNext with
  | some st => st
  | none => if entering || P.sleepIn = 1 then s.rd (F.PW_PCFG.SLEEPST n) else s.portState n

/-- What the device's health traffic reports (Table 13-7): its eligibility, the ports named here, its requests, and a
switchover that is due; `close`: the host-write list of the tick has closed. -/
def healthReport (s : State) (ports : List Nat) (close : Bool) : Health :=
  { elig := s.flag F.SP_PSTAT.ELIG, cause := BitVec.ofNat 4 (s.rd F.SP_PSTAT.NCAUSE), listClose := close
    ports := ports.filterMap fun n => if h : n < 96 then some (⟨n, h⟩, BitVec.ofNat 3 (s.stateAhead n)) else none
    rsReq := s.flag F.SP_PAIR.RSREQ
    switchReq := if s.isStandby then s.engine.handoffs.any fun h => h.opcode == 0x61 && h.ended.isNone else s.pair.switchPending
    ledger := [], overflow := s.pair.overflow, wants := s.isStandby && s.pair.resyncWait }

/-- The device reports ports in its health traffic (R372, R376). -/
def sendHealth (ports : List Nat) (close : Bool) (s : State) : State := s.send (.health (s.healthReport ports close))

/-- The ineligibility causes become `l`: ELIG and NCAUSE follow, and a change of eligibility is written. The active
device of a pair with AUTO = 1 whose link is up and that becomes ineligible asks for a switchover (R381, R382). The
partner is told of the change. NCAUSE has no stated value while no cause holds (log entry 4). -/
def setCauses (l : List Nat) (s : State) : State :=
  let was := s.flag F.SP_PSTAT.ELIG
  let s := s.modPair fun p => { p with causes := l }
  let s := if l = [] then s.draw.2.wr F.SP_PSTAT.NCAUSE s.draw.1 else s.wr F.SP_PSTAT.NCAUSE (l.foldl min 7)
  let elig := l.isEmpty
  let s := s.wr F.SP_PSTAT.ELIG (b2n elig)
  if was = elig then s
  else
    let s := s.pairEvent 0x01 []
    let s := s.modPair fun p => { p with lapsed := p.lapsed || (!elig && s.isStandby) }
    (onlyIf (!elig && s.rd F.SP_PSTAT.ROLE == 1 && s.rd F.SP_PSTAT.LINK == 2 && s.flag F.SP_PAIR.AUTO && s.flag F.SP_PSTAT.PELIG)
      (·.modPair fun p => { p with switchPending := true }) s).sendHealth [] false

/-- An ineligibility cause of Table 13-9 begins to hold. On a standby with AUTORS = 1, 0x1, 0x3, 0x4 and 0x5 ask for a
resynchronization, unless one is in progress (R378). -/
def setCause (c : Nat) (s : State) : State :=
  if c ∈ s.pair.causes then s
  else
    onlyIf (s.isStandby && s.flag F.SP_PAIR.AUTORS && !s.flag F.SP_PSTAT.RESYNC && (c == 1 || c == 3 || c == 4 || c == 5))
      (·.modPair fun p => { p with resyncWait := true }) (s.setCauses (s.pair.causes ++ [c]))

/-- Ineligibility causes end. -/
def endCauses (l : List Nat) (s : State) : State :=
  if s.pair.causes.any (l.contains ·) then s.setCauses (s.pair.causes.filter (!l.contains ·)) else s

/-- A resynchronization is complete: the causes that end with it end (Table 13-9). -/
def endResync (s : State) : State :=
  ((s.wr F.SP_PSTAT.RESYNC 0).modPair fun p => { p with snapTicks := none }).endCauses [1, 2, 3, 4, 5, 6, 7]

/-- The standby compares its digest of a tick with the partner's (R377). -/
def compareDigest (own : Nat) (ownVoid : Bool) (digest : Nat) (void : Bool) (s : State) : State :=
  if void || ownVoid then s.bump F.SP_DIGCNT.VOID
  else if own = digest then
    let s := s.bump F.SP_PSTAT.MATCHRUN
    if s.pair.snapTicks.isSome && s.rd F.SP_PAIR.ELIGN ≤ s.rd F.SP_PSTAT.MATCHRUN then s.endResync else s
  else
    (((s.wr F.SP_PSTAT.MATCHRUN 0).bump F.SP_DIGCNT.MISMATCH).setCause 1).pairEvent 0x02 (words 2 own ++ words 2 digest)

/-- The chip fault of R53: SYS_FAULT.CHIP is set and the device withdraws its eligibility (R431). -/
def raiseChip (s : State) : State := (s.raise F.SYS_FAULT.CHIP).setCause 0

/-- The power, clock or telemetry fault bit (R431). -/
def raisePwr (s : State) : State := s.raise F.SYS_FAULT.PWR

/-! ### Spare and wear events and the live list (R386, R366, R367) -/

/-- Writes an event of class 0x0C (Table 13-12). -/
def wearEvent (code kind unit cause detail : Nat) (rest : List Nat) (s : State) : State :=
  s.post 0x0C code unit (pack [(kind % 8, 15), (unit % 4096, 3), (cause % 8, 0)] :: words 2 s.tickNo ++ [detail] ++ rest)

/-- A retirement enters the live list; SPARE_TAKE alone (cause 0x5) is no retirement, since Table 13-3 lets such a unit
return. With 64 records there it is counted and reported instead (R367). -/
def enterLedger (kind unit cause row detail : Nat) (s : State) : State :=
  if s.wear.live.length < 64 then
    let s := s.modWear fun w => { w with live := w.live ++ [⟨false, kind, unit, cause, row, s.tickNo⟩] }
    s.wr F.SP_LEDGER.LIVE s.wear.live.length
  else (s.bump F.SP_LEDGER.LOST).wearEvent 0x0D kind unit cause detail []

/-- A ledger record of this unit stands in the live list. -/
def inLedger (s : State) (kind unit : Nat) : Bool := s.wear.live.any fun r => r.kind == kind && r.unit == unit

/-! ### Knot engines and lanes (R355 to R357) -/

def engineFailed (s : State) (e : Nat) : Bool := bitOf (s.rd F.SP_ENGINE.FAILED) e

/-- The spare engine is neither failed nor serving a lane. -/
def spareFree (s : State) : Bool := !s.engineFailed 8 && s.rd F.SP_ENGINE.SPARELANE == 0xF

/-- A lane has a working engine now. -/
def laneServed (s : State) (l : Nat) : Bool :=
  !s.engineFailed l || (s.rd F.SP_ENGINE.SPARELANE == l && !s.engineFailed 8)

/-- The lanes without a working engine. -/
def unservedLanes (s : State) : List Nat := (List.range 8).filter fun l => !s.laneServed l

/-- The lane that a free spare takes at the next MAP (R356): the one whose engine failed first. -/
def spareTarget (s : State) : Option Nat :=
  if !s.spareFree then none
  else match s.wear.spareDue.filter s.unservedLanes.contains with
    | some l => some l
    | none => s.unservedLanes.head?

/-- The spare is free, and due to no lane. -/
def spareReady (s : State) : Bool := s.spareFree && s.unservedLanes == []

/-- The lanes for which no engine is left: those without a working engine, but for the one that a free spare takes
at the next MAP (R356). -/
def lanesWithout (s : State) : List Nat := s.unservedLanes.filter fun l => s.spareTarget != some l

/-- SYS_FAULT.NOLANE shows whether a lane has no engine; a new one raises the chip fault (R356, R431). -/
def refreshNolane (s : State) : State :=
  let none' := s.lanesWithout != []
  let was := s.flag F.SYS_FAULT.NOLANE
  let s := s.wr F.SYS_FAULT.NOLANE (b2n none')
  onlyIf (none' && !was) raiseChip s

/-- A cause of Table 13-1 is found for a unit that stands failed with cause `was`, 0 for none: it is recorded where the
unit was working, which a unit with a SOFT cause of service does (R343, R344; log entry 97). -/
def newCause (failed : Bool) (was cause : Nat) : Bool := !failed || ((was == 4 || was == 5) && 1 ≤ cause && cause ≤ 3)

/-- An engine fails: it is recorded, reported and entered in the ledger (R343, R366). -/
def failEngine (e cause : Nat) (s : State) : State :=
  if !newCause (s.engineFailed e) (Sparse.get 0 s.wear.cause (0x1000 + e)) cause then s
  else
    let spare := e != 8 && (s.spareReady || (s.spareFree && s.spareTarget == some e))
    let detail := if spare then 8 else 0x3F
    let s := onlyIf spare (·.modWear fun w => { w with spareDue := some e }) s
    let s := if s.engineFailed e then s else s.wr F.SP_ENGINE.FAILED (s.rd F.SP_ENGINE.FAILED + 2 ^ e)
    let s := s.modWear fun w => { w with cause := Sparse.put 0 w.cause (0x1000 + e) cause }
    (onlyIf (cause != 5 && !s.inLedger 1 e) (enterLedger 1 e cause 0 detail)
      (s.wearEvent 0x01 1 e cause detail [])).refreshNolane

/-- An engine that SPARE_RETURN has tested returns to its lane, and the spare takes the lane that it is due to, at the start
of a MAP (R356, R357). -/
def assignSpare (s : State) : State :=
  let s := match s.wear.engineReturn with
    | none => s
    | some e =>
      let s := onlyIf (s.engineFailed e) (fun s => s.wr F.SP_ENGINE.FAILED (s.rd F.SP_ENGINE.FAILED - 2 ^ e)) s
      let s := onlyIf (s.rd F.SP_ENGINE.SPARELANE == e) (·.wr F.SP_ENGINE.SPARELANE 0xF) s
      (s.modWear fun w => { w with engineReturn := none, cause := Sparse.del w.cause (0x1000 + e) }).endHandoff
        0x59 (128 + e) 0 [e]
  match s.spareTarget with
  | some l => ((s.wr F.SP_ENGINE.SPARELANE l).modWear fun w => { w with spareDue := none }).endHandoff 0x58 (128 + l) 0 [8]
  | none => s

end State
end Sys2Proof.Machine
end

