-- ==== Sys2Proof/Machine/Gateway.lean ====
section
/-! DEFINITION. The signal gateway (chapter 9): knots and their operations, the lane schedule, the visibility of
writes, the image digest, the host-write list. -/

namespace Sys2Proof.Machine

/-! ### Knots (Tables 9-1 and 9-2, R246) -/

/-- The four words of a knot. -/
structure KnotWords where
  w0 : Nat
  w1 : Nat
  w2 : Nat
  w3 : Nat
  deriving DecidableEq, Repr

namespace KnotWords
def op (k : KnotWords) : Nat := bitsOf k.w0 17 15
def width (k : KnotWords) : Nat := bitsOf k.w0 14 10
def bitofs (k : KnotWords) : Nat := bitsOf k.w0 9 0
def smode (k : KnotWords) : Bool := bitOf k.w0 13
def sthr (k : KnotWords) : Bool := bitOf k.w0 12
def scidx (k : KnotWords) : Nat := bitsOf k.w0 11 0
def shalf (k : KnotWords) : Bool := bitOf k.w1 17
def sgn (k : KnotWords) : Bool := bitOf k.w1 16
def src (k : KnotWords) : Nat := bitsOf k.w1 15 0
def qmode (k : KnotWords) : Nat := bitsOf k.w2 17 16
def dst (k : KnotWords) : Nat := bitsOf k.w2 15 0
def last (k : KnotWords) : Bool := bitOf k.w3 17
def next (k : KnotWords) : Nat := bitsOf k.w3 15 0

/-- A knot is valid (R246): its operation is not reserved, its field fits, and no field that the operation does not
use is other than 0. Bit [16] of word 3, which Table 9-1 shows as 0, counts as such a field (log entry 82). -/
def valid (k : KnotWords) : Bool :=
  !bitOf k.w3 16 &&
  (match k.op with
  | 0 => k.w0 == 0 && k.w1 == 0 && k.w2 == 0
  | 1 => k.width ≤ 17 && k.bitofs + k.width + 1 ≤ 576
  | 2 => k.width ≤ 17 && k.bitofs + k.width + 1 ≤ 576 && k.qmode == 0
  | 3 => bitsOf k.w0 14 12 == 0 && !k.sgn && k.qmode == 0
  | 4 => bitsOf k.w0 14 0 == 0 && !k.sgn && k.qmode == 0
  | 5 => bitsOf k.w0 14 12 == 0 && k.qmode == 0
  | 6 => !bitOf k.w0 14 && !k.sgn && k.qmode == 0
  | _ => false)
end KnotWords

/-! ### Values and quality (R248, R250) -/

/-- A number of `w` bits read as two's complement (R7). -/
def signedOf (w v : Nat) : Int := if v < 2 ^ (w - 1) then v else (v : Int) - 2 ^ w

/-- An integer modulo 2^w. -/
def modBits (w : Nat) (x : Int) : Nat := (x % 2 ^ w).toNat

def qOf (x : Nat) : Nat := bitsOf x 17 16
def vOf (x : Nat) : Nat := bitsOf x 15 0

/-- The value of a signal word (num of R248). -/
def numOf (x : Nat) (s : Bool) : Int := if s then signedOf 16 (vOf x) else vOf x

/-- A signal word of a value and a quality. -/
def sigWord (x : Int) (q : Nat) : Nat := q * 2 ^ 16 + modBits 16 x

/-- A value, its quality and whether it saturated. -/
structure Sig where
  x : Int
  q : Nat
  sat : Bool
  deriving DecidableEq, Repr

/-- The worse of two qualities (Table 9-4). -/
def worse (a b : Nat) : Nat := max a b

/-- clampv of R248. -/
def clampv (s : Bool) (g : Sig) : Sig :=
  let lo : Int := if s then -32768 else 0
  let hi : Int := if s then 32767 else 65535
  if g.x < lo then ⟨lo, worse g.q 1, true⟩ else if hi < g.x then ⟨hi, worse g.q 1, true⟩ else g

/-- getbits of R248 over a reader of words. -/
def getBits (img : Nat → Nat) (base p w : Nat) : Nat :=
  (List.range w).foldl (fun f j => f * 2 + b2n ((img ((base + (p + j) / 18) % 65536)).testBit (17 - (p + j) % 18))) 0

/-- What a knot does: its writes (index, bits written, values), its target and result (R259), and sat. -/
structure KnotEffect where
  writes : List (Nat × Nat × Nat)
  target : Nat
  result : Nat
  sat : Bool
  deriving DecidableEq, Repr

/-- A knot that writes one signal word. -/
def KnotEffect.word (dst v : Nat) (sat : Bool) : KnotEffect := ⟨[(dst, 2 ^ 18 - 1, v)], dst, v, sat⟩

/-- UNPACK (R248). `img` reads the half that SHALF names. -/
def knotUnpack (k : KnotWords) (img : Nat → Nat) : KnotEffect :=
  let w := k.width + 1
  let f := getBits img k.src k.bitofs w
  if w = 18 then .word k.dst f false
  else
    let x : Int := if k.sgn && f.testBit (w - 1) then (f : Int) - 2 ^ w else f
    let qWord := qOf (img ((k.src + k.bitofs / 18) % 65536))
    let qHead := qOf (img k.src)
    let q := match k.qmode with
      | 0 => qWord
      | 1 => 0
      | 2 => qHead
      | _ => worse qWord qHead
    let g := clampv k.sgn ⟨x, q, false⟩
    .word k.dst (sigWord g.x g.q) g.sat

/-- PACK (R248): the field bits only. -/
def knotPack (k : KnotWords) (img : Nat → Nat) : KnotEffect :=
  let w := k.width + 1
  let s := img k.src
  let r : Nat × Bool :=
    if w = 18 then (s, false)
    else
      let x := numOf s k.sgn
      let lo : Int := if k.sgn then -(2 ^ (w - 1)) else 0
      let hi : Int := if k.sgn then 2 ^ (w - 1) - 1 else 2 ^ w - 1
      if x < lo then (modBits w lo, true) else if hi < x then (modBits w hi, true) else (modBits w x, false)
  let bits := (List.range w).map fun j =>
    let a := k.bitofs + j
    let m := 2 ^ (17 - a % 18)
    ((k.dst + a / 18) % 65536, m, if r.1.testBit (w - 1 - j) then m else 0)
  ⟨bits, (k.dst + k.bitofs / 18) % 65536, r.1, r.2⟩

/-- SCALE (R248) with a scale entry of words e0, e1, e2. -/
def knotScale (k : KnotWords) (img : Nat → Nat) (e0 e1 e2 : Nat) : KnotEffect :=
  let s := img k.src
  let sh := bitsOf e2 4 0
  let p := numOf s (bitOf e2 5) * signedOf 18 e0
  let p := if bitOf e2 7 && 0 < sh then p + 2 ^ (sh - 1) else p
  let y := p / 2 ^ sh + signedOf 18 e1
  let g := clampv (bitOf e2 6) ⟨y, qOf s, false⟩
  .word k.dst (sigWord g.x g.q) g.sat

/-- LIMIT (R248). -/
def knotLimit (k : KnotWords) (img : Nat → Nat) (e0 e1 : Nat) : KnotEffect :=
  let s := img k.src
  let x := numOf s k.sgn
  let lo := signedOf 18 e0
  let hi := signedOf 18 e1
  let g : Sig := if x < lo then ⟨lo, worse (qOf s) 1, true⟩ else if hi < x then ⟨hi, worse (qOf s) 1, true⟩
    else ⟨x, qOf s, false⟩
  let g := clampv k.sgn g
  .word k.dst (sigWord g.x g.q) g.sat

/-- SUBSTITUTE (R248); `old` is the present value of DST. -/
def knotSubstitute (k : KnotWords) (img : Nat → Nat) (old e0 : Nat) : KnotEffect :=
  let s := img k.src
  if qOf s = 3 || (!k.sthr && qOf s = 1) then
    .word k.dst (sigWord (if k.smode then vOf old else vOf e0) 2) false
  else .word k.dst s false

/-- The effect of a knot: none for a NOP and an invalid knot. `img h i` reads word `i` of the emit half where `h` holds,
of the captured half otherwise; `e` are the words of scale entry SCIDX. -/
def KnotWords.effect (k : KnotWords) (img : Bool → Nat → Nat) (e : Nat → Nat) : Option KnotEffect :=
  if !k.valid then none
  else match k.op with
    | 1 => some (knotUnpack k (img k.shalf))
    | 2 => some (knotPack k (img k.shalf))
    | 3 => some (knotScale k (img k.shalf) (e 0) (e 1) (e 2))
    | 4 => some (.word k.dst (img k.shalf k.src) false)
    | 5 => some (knotLimit k (img k.shalf) (e 0) (e 1))
    | 6 => some (knotSubstitute k (img k.shalf) (img true k.dst) (e 0))
    | _ => none

/-! ### The lane schedule (R254) -/

/-- The lane with the smallest total so far, the lower one where totals are equal. -/
def lightest : List Nat → Nat
  | [] => 0
  | l => (l.zip (List.range l.length)).foldl (fun (a : Nat × Nat) e => if e.1 < a.1 then e else a)
      (l.headD 0, 0) |>.2

/-- Lists of one stage, as (list, head, count) in ascending number, placed on lanes: (lane, list) and the totals. -/
def placeLists : List (Nat × Nat × Nat) → List Nat → List (Nat × Nat × Nat × Nat) × List Nat
  | [], tot => ([], tot)
  | (n, h, c) :: t, tot =>
    let l := lightest tot
    let r := placeLists t (tot.set l (tot.getD l 0 + c))
    ((l, n, h, c) :: r.1, r.2)

namespace State

/-- The lists whose live head has EN = 1, in ascending number. -/
def enabledLists (s : State) : List Nat :=
  ((Sparse.range s.regs (0xC00 * 64) (0x1000 * 64)).filter fun e => e.1 % 64 == 17 && e.2 != 0).map fun e => e.1 / 64 - 0xC00

def headOf (s : State) (n : Nat) : Nat × Nat × Nat := (n, s.rd (F.GW_LISTHEAD.HEAD n), s.rd (F.GW_LISTHEAD.COUNT n))

/-- The placement of the enabled lists of each stage that holds one, with L of the stage (R254). -/
def schedule (s : State) : List (List (Nat × Nat × Nat × Nat) × Nat) :=
  let en := s.enabledLists
  (List.range 8).filterMap fun st =>
    match en.filter fun n => s.rd (F.GW_LISTHEAD.STAGE n) == st with
    | [] => none
    | ls => let r := placeLists (ls.map s.headOf) (List.replicate 8 0)
            some (r.1, r.2.foldl max 0)

/-- The scheduled length T. -/
def schedLength (s : State) : Nat := s.schedule.foldl (fun a st => a + st.2 + 8) 0

/-- The sum of COUNT over the enabled lists. -/
def knotTotal (s : State) : Nat := s.enabledLists.foldl (fun a n => a + s.rd (F.GW_LISTHEAD.COUNT n)) 0

/-- GW_MAPSTAT and GW_KNOTTOT report the live schedule (R254). -/
def refreshMapstat (s : State) : State :=
  ((s.wr F.GW_MAPSTAT.LISTS s.enabledLists.length).wr F.GW_MAPSTAT.TSCHED s.schedLength).wr F.GW_KNOTTOT.TOTAL s.knotTotal

/-- The lists of the schedule with the clk of their stage starts; `start`: the first clk of MAP (R255). -/
def listRuns (s : State) (start : Nat) : List (Nat × ListRun) :=
  (s.schedule.foldl (fun (a : List (Nat × ListRun) × Nat) st =>
    (a.1 ++ st.1.map fun e => (e.1, ⟨a.2, e.2.1, e.2.2.1, e.2.2.2⟩), a.2 + st.2 + 8)) ([], start)).1

def lane (s : State) (l : Nat) : Lane := Sparse.get {} s.gateway.lanes l
def modLane (l : Nat) (f : Lane → Lane) (s : State) : State :=
  s.modGw fun g => { g with lanes := Sparse.modify {} g.lanes l f }

/-- MAP begins in clk `t` (R255, R258, R356, R357): the spare takes a lane or shadows one, and each lane with
an engine gets its lists. -/
def startMap (t : Nat) (s : State) : State :=
  let s := s.assignSpare.refreshNolane
  let runs := s.listRuns t
  let lanes := (List.range 8).map fun l =>
    let up := s.laneServed l
    (l, { todo := if up then (runs.filter (·.1 == l)).map (·.2) else [], clk := t, dead := !up : Lane })
  let sh := if !s.spareFree then none
    else match s.gateway.suspect with
      | some (l, 1) => some ((l + 1) % 8)
      | some (l, _) => some l
      | none => some (s.tickNo % 8)
  let s := s.modGw fun g =>
    { g with lanes := lanes.filter (fun e => e.2 != {}), inflight := [], mapStart := t, lastIssue := none,
             digestVoid := lanes.any (·.2.dead), shadow := sh, differed := false }
  match sh with
  | some l => (s.wr F.SP_ENGINE.SHLANE l).wr F.SP_ENGINE.SHPASS (match s.gateway.suspect with | some p => p.2 | none => 0)
  | none => s

/-! ### Knots in MAP (R255, R256) -/

/-- The list, knot and knots left that a lane issues next, and its clk. -/
def Lane.due (L : Lane) : Option ((Nat × Nat × Nat) × Nat) :=
  if L.dead then none
  else match L.cur with
    | some c => some (c, L.clk)
    | none => match L.todo with
      | r :: _ => some ((r.list, r.head, r.count), max L.clk r.start)
      | [] => none

/-- The clk in which a lane issues its next knot. -/
def laneDue (s : State) (l : Nat) : Option Nat := (Lane.due (s.lane l)).map (·.2)

/-- One write over the bits of a word that it writes. -/
def overlay (old mask v : Nat) : Nat := old - (old &&& mask) + v

/-- The word of the emit half that a knot of lane `l` issued in clk `t` reads (R256). -/
def emitSeen (s : State) (l t i : Nat) : Nat :=
  s.gateway.inflight.foldl (fun v r =>
    if r.lane = l || r.clk + 6 ≤ t then
      r.writes.foldl (fun v w => if w.1 = i then overlay v w.2.1 w.2.2 else v) v
    else v) (s.emitWord i).toNat

/-- An element joins a list that holds it at most once. -/
def joined (x : Nat) (l : List Nat) : List Nat := if x ∈ l then l else l ++ [x]

/-- A standby keeps the emit dwords that its knots and host writes have written in this tick, and a resynchronization
marks them (R240, R378). -/
def markEmit (i : Nat) (s : State) : State :=
  onlyIf s.isStandby (·.modGw fun g =>
    { g with wrote := joined (i / 2) g.wrote, marked := if g.marking then joined (i / 2) g.marked else g.marked }) s

/-- A knot makes its writes, and the lane's CRC takes its target and result (R256, R259). -/
def landKnot (r : KnotWriteRec) (s : State) : State :=
  let s := each r.writes (fun w s => (s.wrEmit w.1 (wordOf (overlay (s.emitWord w.1).toNat w.2.1 w.2.2))).markEmit w.1) s
  s.modLane r.lane fun L => { L with crc := crcOf 24 0x864CFB L.crc (bitsMsb 16 r.target ++ bitsMsb 18 r.result) }

/-- Writes due in or before clk `t` are made, in the order of their clk and lane. -/
def landUpTo (t : Nat) (s : State) : State :=
  let g := s.gateway
  each (g.inflight.filter fun r => r.clk + 5 ≤ t) landKnot
    (s.modGw fun g => { g with inflight := g.inflight.filter fun r => !(r.clk + 5 ≤ t) })

/-- Inserts an issued knot in the order of clk and lane. -/
def insertKnot (r : KnotWriteRec) : List KnotWriteRec → List KnotWriteRec
  | [] => [r]
  | x :: t => if r.clk < x.clk || (r.clk == x.clk && r.lane < x.lane) then r :: x :: t else x :: insertKnot r t

/-- A knot executes in lane `l` at clk `t` (R246, R248, R256): its effect is issued, and saturation counted. -/
def executeKnot (l n k t : Nat) (s : State) : State :=
  let kw : KnotWords := ⟨(s.knotWord k 0).toNat, (s.knotWord k 1).toNat, (s.knotWord k 2).toNat, (s.knotWord k 3).toNat⟩
  if !kw.valid then
    (s.bump F.GW_ERR.INVALID).postOnce 0x8010000 0x08 0x01 0 ([k, pack [(l, 10), (n, 0)]] ++ words 2 s.tickNo)
  else
    let img (h : Bool) (i : Nat) : Nat := if h then s.emitSeen l t i else (s.capWord i).toNat
    match kw.effect img fun w => (s.scaleWord kw.scidx w).toNat with
    | none => s
    | some e =>
      let s := onlyIf e.sat (·.bump F.GW_SATCNT.SAT) s
      s.modGw fun g => { g with inflight := insertKnot ⟨l, t, e.writes, e.target, e.result⟩ g.inflight }

/-- After a knot, the lane follows LAST and NEXT; a list that executes COUNT knots without LAST is truncated (R255). -/
def followList (l n k left t : Nat) (s : State) : State :=
  let w3 := (s.knotWord k 3).toNat
  let ends := bitOf w3 17
  let cut := !ends && left ≤ 1
  let s := s.modLane l fun L =>
    { L with todo := if L.cur.isNone then L.todo.drop 1 else L.todo
             cur := if ends || cut then none else some (n, bitsOf w3 15 0, left - 1)
             clk := t + 1, ran := true }
  onlyIf cut (fun s => (s.bump F.GW_ERR.TRUNC).postOnce 0x8020000 0x08 0x02 0 ([n, k] ++ words 2 s.tickNo)) s

/-- Lane `l` issues its next knot, if it is in MAP, no other lane's knot is due earlier, and the boundary is not
reached (R43, R255). A result of the spare that differs makes the shadow pass a disagreement (R357). -/
def issueKnot (l : Nat) (differs : Bool) (s : State) : State :=
  match Lane.due (s.lane l) with
  | none => s
  | some ((n, k, left), t) =>
    if (s.advanceClk t).boundaryHere ||
        (List.range 8).any fun o => match s.laneDue o with | some u => u < t | none => false then s
    else
      let s := (s.advanceClk t).landUpTo (t - 1)
      let s := s.executeKnot l n k t
      let s := s.followList l n k left t
      s.modGw fun g => { g with lastIssue := some t, differed := g.differed || (differs && g.shadow == some l) }

/-- MAP closes its digest (R259): the XOR of the lane values. A MAP that issued no knot closes it to 0, since the
eight equal lane values cancel. A standby compares it with the partner's, once both have come (R377). -/
def closeDigest (void : Bool) (s : State) : State :=
  let d := (List.range 8).foldl (fun a l => a ^^^ (s.lane l).crc) 0
  let s := s.modGw fun g => { g with digestVoid := g.digestVoid || void }
  let s := (s.wr F.GW_DIGEST.DIGEST d).wr F.GW_DIGTICK.TICKNO s.tickNo
  if !s.isStandby || s.rd F.SP_PSTAT.LINK ≠ 2 then s
  else
    match s.pair.early with
    | [] => s.modPair fun p => { p with awaited := p.awaited ++ [(s.tickNo, d, s.gateway.digestVoid)] }
    | x :: t => (s.modPair fun p => { p with early := t }).compareDigest d s.gateway.digestVoid x.1 x.2

/-- The shadow pass of this MAP ends (Table 13-4). A MAP in which the shadowed lane ran no knot is no pass. -/
def endShadow (s : State) : State :=
  match s.gateway.shadow with
  | none => s
  | some l =>
    if !(s.lane l).ran then s
    else
      let dis := s.gateway.differed
      let s := onlyIf dis (·.bump F.SP_ENGINE.SHDIS) s
      let set (p : Option (Nat × Nat)) (s : State) : State := s.modGw fun g => { g with suspect := p }
      match s.gateway.suspect with
      | none => if dis then set (some (l, 1)) s else s
      | some (L, 1) => if dis then (set none s).failEngine 8 4 else set (some (L, 2)) s
      | some (L, _) => if dis then (set none s).failEngine L 4 else set none s

/-! ### The host-write list (R241, R242) -/

/-- A write joins a list: the entry of its dword takes the selected words, or a new entry ends the list (R241). -/
def joinList (i we : Nat) (d : Dword) (l : List HostWrite) : List HostWrite :=
  match l.find? (·.index == i) with
  | some e =>
    let lo := if bitOf we 0 then d.lo else e.data.lo
    let hi := if bitOf we 1 then d.hi else e.data.hi
    l.map fun x => if x.index = i then ⟨i, x.we ||| we, dwordOf lo hi⟩ else x
  | none => l ++ [⟨i, we, d⟩]

/-- A write to the emit window enters the collecting list, or the one that begins in the boundary clk, unless it would be its
65th entry (R241). -/
def enterList (late : Bool) (i : Nat) (d : Dword) (s : State) : State :=
  let we := s.rd F.GW_HWCTRL.WE
  let l := if late then s.gateway.late else s.gateway.collecting
  if we = 0 then s
  else if (l.any fun e => e.index == i) || l.length < 64 then
    let l := joinList i we d l
    s.modGw fun g => if late then { g with late := l } else { g with collecting := l }
  else (s.bump F.GW_HWSTAT.DISC).postOnce 0x8030000 0x08 0x03 0 ([i] ++ words 2 s.tickNo)

/-- A host write to the emit window: one in the boundary clk enters the list that begins there (R242). -/
def hostWriteList (i : Nat) (d : Dword) (s : State) : State := s.enterList s.boundaryHere i d

/-- One entry of the applying list is written: the enabled words only (R242). -/
def applyEntry (e : HostWrite) (s : State) : State :=
  let s := onlyIf (bitOf e.we 0) (fun s => (s.wrEmit (2 * e.index) e.data.lo).markEmit (2 * e.index)) s
  onlyIf (bitOf e.we 1) (fun s => (s.wrEmit (2 * e.index + 1) e.data.hi).markEmit (2 * e.index)) s

/-- The applying list is to be written into the emit half, one entry a clk from clk `k` on, in the order of its entries:
CAPTURE does not complete before the last one (R242). -/
def applyFrom (k : Nat) (s : State) : State :=
  let n := s.gateway.applying.length
  (s.modGw fun g => { g with applyAt := k }).modTick fun u => { u with phaseFrom := max u.phaseFrom (k + n - 1) }

/-- The entries of the applying list whose clk has come are written; none while a standby waits for the list-close mark
(R375). -/
def applyDue (s : State) : State :=
  let n := if s.pair.listClose then s.clk + 1 - s.gateway.applyAt else 0
  (each (s.gateway.applying.take n) applyEntry s).modGw fun g =>
    { g with applying := g.applying.drop n, applyAt := g.applyAt + min n g.applying.length }

/-- The word that a reader finds in the emit half now: a knot or an entry of the applying list whose write falls in this clk
has made it (R240, R242). -/
def emitNow (s : State) (i : Nat) : Nat := ((s.landUpTo s.clk).applyDue.emitWord i).toNat

/-- The host writes one dword of the knot window (R244). -/
def hostKnot (i : Nat) (d : Dword) (s : State) : State :=
  (s.wrKnot (i / 2) (2 * (i % 2)) d.lo).wrKnot (i / 2) (2 * (i % 2) + 1) d.hi

end State
end Sys2Proof.Machine
end

