-- ==== Sys2Proof/Machine/Profile.lean ====
section
/-! DEFINITION. The profile engine (chapter 10): bindings, conditions and policies, the evaluation of reports, the
profile areas, the command override of EMIT and the HART tunnel. -/

namespace Sys2Proof.Machine

/-! ### Binding entries (Table 10-1) -/

/-- A binding entry, decoded. -/
structure Binding where
  en : Bool
  prof : Nat
  port : Nat
  rbuf : Nat
  org : Nat
  policy : Nat
  cben : Bool
  hen : Bool
  parea : Nat
  cbuf : Nat
  htbuf : Nat
  hpri : Nat
  hrbuf : Nat
  htmo : Nat
  w6 : Nat
  tol : Nat
  univ : Nat
  win : Nat
  func0 : Nat
  func1 : Nat
  deriving DecidableEq, Repr

/-- The binding that twelve words spell. -/
def Binding.of (w : Nat → Nat) : Binding :=
  { en := bitOf (w 0) 17, prof := bitsOf (w 0) 16 14, port := bitsOf (w 0) 13 7, rbuf := bitsOf (w 0) 6 0
    org := bitsOf (w 1) 17 8, policy := bitsOf (w 1) 7 0
    cben := bitOf (w 2) 17, hen := bitOf (w 2) 16, parea := bitsOf (w 2) 15 0
    cbuf := bitsOf (w 3) 13 7, htbuf := bitsOf (w 3) 6 0
    hpri := bitsOf (w 4) 17 7, hrbuf := bitsOf (w 4) 6 0, htmo := bitsOf (w 5) 11 0
    w6 := w 6, tol := bitsOf (w 7) 15 0, univ := bitsOf (w 8) 15 8, win := bitsOf (w 8) 7 0
    func0 := bitsOf (w 9) 15 0, func1 := bitsOf (w 10) 15 0 }

namespace Binding
def isDI (b : Binding) : Bool := b.prof == 1
def isDO (b : Binding) : Bool := b.prof == 2 || b.prof == 3
def isAIO (b : Binding) : Bool := b.prof == 4
/-- Words of the profile area (Table 10-2). -/
def areaWords (b : Binding) : Nat := if b.isAIO then 10 else if b.prof = 0 then 0 else 18
def channels (b : Binding) : Nat := if b.isAIO then 8 else 16
def outmask (b : Binding) : Nat := bitsOf b.w6 15 8
def mdrop (b : Binding) : Nat := bitsOf b.w6 7 0
def saglim (b : Binding) : Nat := bitsOf b.w6 15 0
def output (b : Binding) (k : Nat) : Bool := b.isDO || (b.isAIO && bitOf b.outmask k)
/-- Command LEN (Table 10-2). -/
def commandLen (b : Binding) : Nat := if b.isAIO then 11 else if b.isDO then 1 else 0

/-- The words of an entry with its reserved bits 0 (R13). -/
def plain (w : Nat → Nat) (i : Nat) : Nat :=
  if i = 3 then bitsOf (w 3) 13 0 else if i = 5 then bitsOf (w 5) 11 0 else if i = 11 then 0 else w i

/-- Every field that the profile does not use is 0, no value is reserved, and none is out of its range (R267). -/
def wordsOk (w : Nat → Nat) : Bool :=
  let w := plain w
  let b := Binding.of w
  b.port < 96 &&
    (if b.prof == 1 then !b.cben && !b.hen && w 3 == 0 && w 4 == 0 && w 5 == 0 && w 7 == 0 && w 8 == 0 && w 9 == 0 && w 10 == 0
     else if b.isDO then !b.hen && bitsOf (w 3) 6 0 == 0 && w 4 == 0 && w 5 == 0 && bitsOf (w 6) 17 16 == 0 && w 7 == 0 &&
       w 8 == 0 && w 9 == 0 && w 10 == 0
     else if b.prof == 4 then bitsOf (w 6) 17 16 == 0 && bitsOf (w 7) 17 16 == 0 && bitsOf (w 8) 17 16 == 0 && b.win != 0 &&
       bitsOf (w 9) 17 16 == 0 && bitsOf (w 10) 17 16 == 0 &&
       (List.range 4).all (fun k => bitsOf (w 9) (4 * k + 3) (4 * k) ≤ 5 && bitsOf (w 10) (4 * k + 3) (4 * k) ≤ 5) &&
       (!b.hen || b.htmo != 0)
     else b.prof == 0 && !b.cben && !b.hen && (List.range 8).all fun i => w (i + 3) == 0)
end Binding

namespace State

/-- The live entry of binding `n`. -/
def binding (s : State) (n : Nat) : Binding := Binding.of fun w => s.rdK (bindKey n w)

/-- The live bindings with EN = 1, in ascending number. -/
def bindings (s : State) : List Nat :=
  ((Sparse.range s.regs (bindKey 0 0) (bindKey 2048 0)).filter fun e => (e.1 - bindKey 0 0) % 12 == 0 && bitOf e.2 17).map
    fun e => (e.1 - bindKey 0 0) / 12

/-- The action of a condition under a policy entry (Table 10-4). -/
def policyAction (s : State) (p c : Nat) : Nat := bitsOf (s.rdK (policyKey p (c / 6))) (17 - 3 * (c % 6)) (15 - 3 * (c % 6))
def policySubst (s : State) (p : Nat) : Nat := bitsOf (s.rdK (policyKey p 3)) 15 0
def policySafe (s : State) (p : Nat) : Nat := bitsOf (s.rdK (policyKey p 4)) 15 0
def policyClear (s : State) (p : Nat) : Nat := bitsOf (s.rdK (policyKey p 5)) 7 0

/-- GW_PFSTAT reports the live bindings (Table 10-14a). -/
def refreshPfstat (s : State) : State :=
  (s.wr F.GW_PFSTAT.BOUND s.bindings.length).wr F.GW_PFSTAT.AREAW
    (s.bindings.foldl (fun a n => a + (s.binding n).areaWords) 0)

/-- Writes an event of class 0x09 (Table 10-15). -/
def profEvent (n code : Nat) (rest : List Nat) (s : State) : State := s.post 0x09 code n (n :: rest)

/-- The bulk queue with a given BIND (Table 8-3). -/
def boundQueue (s : State) (b : Nat) : Option Nat := [0x200, 0x201, 0x202, 0x203].find? fun q => s.rd (F.QCFG.BIND q) == b

/-- Pushes a packet into the bulk queue bound 0x3, or drops and reports it (R282). -/
def profPacket (n tag : Nat) (body : List Nat) (s : State) : State :=
  let ws := pack [(tag, 12), (body.length, 0)] :: body
  match s.boundQueue 3 with
  | some q =>
    if ws.length ≤ s.room q then s.pushBulk q ws
    else (s.bump F.GW_PFCNT0.OUTDROP).profEvent n 0x04 (tag :: words 2 s.tickNo)
  | none => (s.bump F.GW_PFCNT0.OUTDROP).profEvent n 0x04 (tag :: words 2 s.tickNo)

/-! ### Conditions (R269, R270) -/

/-- The channel number that stands for the node. -/
def nodeChan : Nat := 16

/-- All channels of a profile as a mask. -/
def allChannels (b : Binding) : Nat := 2 ^ b.channels - 1

/-- A condition is active for a channel, itself or as a node condition. -/
def condActive (s : State) (n c k : Nat) : Bool :=
  (s.bind n).conds.any fun x => x.code == c && x.active && (x.chan == k || x.chan == nodeChan)

/-- A condition is active for some channel or the node. -/
def condAny (s : State) (n c : Nat) : Bool := (s.bind n).conds.any fun x => x.code == c && x.active

/-- The highest action code among the conditions active for a channel (R271). -/
def action (s : State) (n k : Nat) : Nat :=
  ((List.range 16).filter fun c => s.condActive n c k).foldl (fun a c => max a (s.policyAction (s.binding n).policy c)) 0

/-- Mask of channels as an event shows them. -/
def chanMask (b : Binding) (l : List Nat) : Nat :=
  if nodeChan ∈ l then allChannels b else l.foldl (fun a k => a + 2 ^ k) 0

/-- One evaluation of a condition (R270): `present` lists the channels (or the node) on which its cause is seen,
`absent` those on which it is found absent. On a channel in neither list the run of reports that count toward clearing
ends, but for an evaluation that does not count (`counts`). -/
def judge (n c : Nat) (present absent : List Nat) (s : State) (counts : Bool := true) : State :=
  let b := s.binding n
  let find (k : Nat) : Cond := ((s.bind n).conds.find? fun x => x.code == c && x.chan == k).getD ⟨c, k, false, 0⟩
  let raised := present.filter fun k => !(find k).active
  let clear := s.policyClear b.policy
  let counted := absent.filter fun k => (find k).active
  let cleared := counted.filter fun k => clear ≤ (find k).absent + 1
  let rest' := (s.bind n).conds.filter fun x => !(x.code == c && (present.contains x.chan || counted.contains x.chan))
  let conds := rest'.map (fun x => if x.code = c && counts then { x with absent := 0 } else x) ++
    present.map (fun k => ⟨c, k, true, 0⟩) ++
    (counted.filter fun k => !cleared.contains k).map fun k => ⟨c, k, true, (find k).absent + 1⟩
  let s := s.modBind n fun B => { B with conds := conds }
  let rest (l : List Nat) : List Nat :=
    [chanMask b l, pack [(c, 0), (s.policyAction b.policy c, 4)]] ++ words 2 s.tickNo
  let s := onlyIf (raised != []) (profEvent n 0x01 (rest raised)) s
  onlyIf (cleared != []) (profEvent n 0x02 (rest cleared)) s

/-- A node condition is present or absent. -/
def judgeNode (n c : Nat) (present : Bool) (s : State) : State :=
  if present then s.judge n c [nodeChan] [] else s.judge n c [] [nodeChan]

/-- A channel condition by the mask of the channels on which it is present. -/
def judgeMask (n c mask : Nat) (s : State) : State :=
  let ks := List.range (s.binding n).channels
  s.judge n c (ks.filter (bitOf mask ·)) (ks.filter (!bitOf mask ·))

/-! ### Reports (R272, R274) -/

/-- A report is malformed (R274). `w` are its payload words, `kind` its KIND. For a profile of none, to which Table 10-2 gives
no report, KIND alone decides (DESIGN CHOICE, log entry 108). -/
def malformed (b : Binding) (kind plen : Nat) (w : Nat → Nat) : Bool :=
  kind != 0 ||
  (if b.isDI then
    let e := bitsOf (w 2) 5 0
    14 < e || plen != 3 + 2 * e || bitOf (w 1) 16 || bitsOf (w 2) 17 6 != 0 ||
      (List.range e).any fun i => bitsOf (w (3 + 2 * i)) 8 4 != 0
  else if b.isDO then
    plen != 7 || [1, 2, 3, 5, 6].any (fun i => bitsOf (w i) 17 16 != 0) || bitOf (w 4) 16 ||
      (if b.prof = 2 then bitOf (w 4) 17 else w 1 != 0 || w 2 != 0 || w 3 != 0)
  else b.isAIO && (plen != 10 || bitsOf (w 8) 17 16 != 0 || bitsOf (w 9) 17 16 != 0 || bitsOf (w 9) 7 0 != 0))

/-- The values and qualities that a report gives, channel by channel; SUPPLY of a DO node stands as channel 16. -/
def reportValues (b : Binding) (w : Nat → Nat) : List (Nat × Nat) :=
  if b.isAIO then (List.range 8).map fun k => (vOf (w k), qOf (w k))
  else if b.prof = 0 then []
  else
    (List.range 16).map (fun k => (b2n (bitOf (w 0) k), qOf (w 0))) ++
      if b.isDO then [(vOf (w 6), qOf (w 0))] else []

/-- The conditions of one well-formed report, but for RBDEV (Table 10-3, R272). -/
def judgeReport (n : Nat) (w : Nat → Nat) (s : State) : State :=
  let b := s.binding n
  let m (i : Nat) : Nat := bitsOf (w i) 15 0
  if b.isDI then (s.judgeMask n 0x2 (m 1)).judgeNode n 0x3 (!bitOf (w 1) 17)
  else if b.isDO then
    let ks := List.range 16
    let cmd := m 5
    let rb := m 0
    let xf := m 4
    let s := if b.prof = 2 then ((s.judgeMask n 0x4 (m 1)).judgeMask n 0x5 (m 2)).judgeMask n 0x6 (m 3) else s
    let short := ks.foldl (fun a k => a + if !bitOf cmd k && bitOf rb k && !bitOf xf k then 2 ^ k else 0) 0
    let s := ((s.judgeMask n 0x7 short).judgeMask n 0x8 xf).judgeNode n 0x9 (m 6 < b.saglim)
    if b.prof = 3 then
      let cf := bitOf (w 4) 17
      let loc := ks.filter fun k => bitOf cmd k && !bitOf rb k
      let present := if !cf then [] else if loc = [] then [nodeChan] else loc
      s.judge n 0xA present ((nodeChan :: ks).filter (!present.contains ·))
    else s
  else if !b.isAIO then s
  else
    let s := (s.judgeMask n 0xC (bitsOf (w 8) 15 8)).judgeMask n 0xD (bitsOf (w 8) 7 0)
    let diff := (List.range 8).foldl
      (fun a k => a + if bitOf b.univ k || bitOf (bitsOf (w 9) 15 8) k != bitOf b.univ k then 2 ^ k else 0) 0
    s.judgeMask n 0xE diff

/-- MDREF is raised for the channels whose command EMIT has refused since the last evaluation (R277): a malformed report
counts toward clearing no condition but MALFORMED (R270). -/
def judgeRefused (n : Nat) (wellFormed : Bool) (s : State) : State :=
  let md := (s.bind n).mdRefused
  let s := s.judge n 0xF md ((List.range 8).filter fun k => wellFormed && !md.contains k) wellFormed
  s.modBind n fun B => { B with mdRefused := [] }

/-- The action that applies to a channel word; channel 16 of a DO node is SUPPLY, under SAG only (Table 10-9). -/
def areaAction (s : State) (n k : Nat) : Nat :=
  if k < 16 then s.action n k
  else if s.condAny n 0x9 then s.policyAction (s.binding n).policy 0x9 else 0

/-- The held values that a report brings (R275, R276): those of channels whose action is at most UNCERTAIN. -/
def holdReport (n : Nat) (vals : List (Nat × Nat)) (s : State) : State :=
  each ((List.range vals.length).zip vals) (fun e s =>
    onlyIf (s.areaAction n e.1 ≤ 1 && e.2.2 ≤ 1) (·.modBind n fun B => { B with held := Sparse.put 0 B.held e.1 e.2.1 }) s) s

/-- Distance between two readback values. -/
def apart (a b : Nat) : Nat := if a < b then b - a else a - b

/-- The readback window of an AIO output (R278); `stamp` is the report's SOF timestamp. Where no EMIT transfer has left a
command before the report, there is nothing to compare (log entry 56). -/
def readback (n : Nat) (stamp : Nat) (vals : List (Nat × Nat)) (s : State) : State :=
  let b := s.binding n
  if !b.isAIO then s
  else
    let before (t : Nat) : Bool := let d := (stamp + 2 ^ 36 - t % 2 ^ 36) % 2 ^ 36; 0 < d && d < 2 ^ 35
    let off (k : Nat) : Bool := match (Sparse.get [] (s.port b.port).emitted b.cbuf).find? fun e => before e.1 with
      | some e => b.tol < apart (vals.getD k (0, 0)).1 (vOf (e.2.getD k 0))
      | none => false
    let ks := (List.range 8).filter fun k => bitOf b.outmask k && !bitOf b.univ k && b.cben
    let s := each (List.range 8) (fun k s =>
      let old := Sparse.get 0 (s.bind n).devCount k
      let new := if ks.contains k && off k then min (old + 1) b.win else 0
      s.modBind n fun B => { B with devCount := Sparse.put 0 B.devCount k new }) s
    let cnt (k : Nat) : Nat := Sparse.get 0 (s.bind n).devCount k
    s.judge n 0xB ((List.range 8).filter fun k => 0 < b.win && b.win ≤ cnt k) ((List.range 8).filter fun k => cnt k = 0)

/-- The edges of a DI-16 report are converted and sent to the host (R281, R282). -/
def convertEdges (n : Nat) (stamp : Nat) (w : Nat → Nat) (s : State) : State :=
  let b := s.binding n
  let ne := bitsOf (w 2) 5 0
  if !b.isDI || ne = 0 then s
  else
    let ndly := signedOf 18 b.w6
    let edge (e : Nat) : Nat × Option Nat :=
      let a := w (3 + 2 * e)
      let ofs := bitsOf a 3 0 * 2 ^ 18 + w (4 + 2 * e)
      let bc := (s.port b.port).beacons.find? fun x =>
        x.tickNo % 16 == bitsOf a 12 9 && (let d := (stamp + 2 ^ 36 - x.sof % 2 ^ 36) % 2 ^ 36; 0 < d && d < 2 ^ 35)
      (bitsOf a 17 13, match bc with
        | some x => if s.condAny n 0x3 || x.period < ofs then none else some (modBits 36 ((x.sof + ofs : Nat) + ndly))
        | none => none)
    let es := (List.range ne).map edge
    let bad := (es.filter (·.2.isNone)).length
    let s := (s.bump F.GW_PFCNT0.EDGEINV bad).modBind n fun B => { B with edges := min (B.edges + (ne - bad)) 65535 }
    s.profPacket n 1 ([n, ne] ++ es.flatMap fun e =>
      pack [(e.1, 13), (b2n e.2.isSome, 12)] :: words 2 (e.2.getD 0))

/-! ### The profile area (R276, R279) -/

/-- RBUF counts as expected: EXPECT = 1 and the port is not asleep (R316). -/
def rbufExpected (s : State) (b : Binding) : Bool := (s.desc b.port b.rbuf).expect && !s.asleep b.port

/-- One channel word of R276: value and quality. -/
def channelWord (s : State) (n k : Nat) : Nat × Nat :=
  let b := s.binding n
  let B := s.bind n
  let a := s.areaAction n k
  let p := b.policy
  let r := B.newest.bind (·[k]?)
  let vq : Nat × Nat := match r with
    | some e => e
    | none =>
      let q := Sparse.get 0 B.prevQ k
      (Sparse.get 0 B.prevV k, if s.rbufExpected b then worse q 1 else q)
  let bitVal (x : Nat) : Nat := if b.isAIO || k = 16 then x else b2n (bitOf x k)
  if b.output k && k < 16 then
    (vq.1, if a = 1 then worse vq.2 1 else if a = 2 then 3 else if 3 ≤ a then worse vq.2 2 else vq.2)
  else match a with
    | 0 => vq
    | 1 => (vq.1, worse vq.2 1)
    | 2 => (vq.1, 3)
    | 3 => (Sparse.get 0 B.held k, 2)
    | 4 => (bitVal (s.policySubst p), 2)
    | _ => (bitVal (s.policySafe p), 2)

/-- The status word of an area (R279). -/
def statusWord (s : State) (n : Nat) (q : Nat) : Nat :=
  q * 2 ^ 16 + (List.range 16).foldl (fun a c => a + if s.condAny n c then 2 ^ c else 0) 0

/-- The engine composes the area of a binding (R276, R279). -/
def composeArea (n : Nat) (s : State) : State :=
  let b := s.binding n
  let B := s.bind n
  let ks := List.range (if b.isDO then 17 else b.channels)
  let vq := ks.map (s.channelWord n)
  let kv := ks.zip vq
  let word (e : Nat × Nat) : Nat := e.2 * 2 ^ 16 + e.1
  let chans := (vq.take b.channels).map word
  let st := s.statusWord n ((vq.take b.channels).foldl (fun a e => worse a e.2) 0)
  let tail := if b.isDI then B.edges
    else if b.isDO then word (vq.getD 16 (0, 0)) else pack [(B.modeAck, 8), (b.univ, 0)]
  let held := kv.foldl (fun h e => if s.areaAction n e.1 ≤ 1 && e.2.2 ≤ 1 then Sparse.put 0 h e.1 e.2.1 else h) B.held
  s.modBind n fun B =>
    { B with
      area := if b.areaWords = 0 then none else some ⟨(chans ++ [st, tail]).take b.areaWords, held, kv.foldl (fun m e => Sparse.put 0 m e.1 e.2.1) B.prevV,
        kv.foldl (fun m e => Sparse.put 0 m e.1 e.2.2) B.prevQ⟩
      newest := none, edges := 0, owed := false }

/-- The area of a binding is written into the captured half (R280). -/
def writeArea (n : Nat) (s : State) : State :=
  match (s.bind n).area with
  | none => s
  | some a =>
    let p := (s.binding n).parea
    let s := each ((List.range a.words.length).zip a.words) (fun e => wrCap (p + e.1) (wordOf e.2)) s
    s.modBind n fun B => { B with area := none, held := a.held, prevV := a.prevV, prevQ := a.prevQ }

/-- The areas that CAPTURE has still to write, among them those that wait for an evaluation. -/
def areasLeft (s : State) : List Nat := (s.binds.filter fun e => e.2.owed || e.2.area.isSome).map (·.1)

/-- CAPTURE is stopped before an area is written: its good words become uncertain (R280). A report whose evaluation is still
running feeds the next CAPTURE (DESIGN CHOICE, log entry 109). -/
def skipArea (n : Nat) (s : State) : State :=
  let b := s.binding n
  let s := each (List.range b.areaWords) (fun i s =>
    let w := s.capWord (b.parea + i)
    if w.toNat / 2 ^ 16 = 0 then s.wrCap (b.parea + i) (wordOf (w.toNat + 2 ^ 16)) else s) s
  s.modBind n fun B => { B with area := none, owed := false }

/-- The boundary finds which bindings have a report that closed by now and is not evaluated, raises MISSING, and
composes the other areas (R269, R280, R286). `stored`: a report store of the binding completed in the tick. A binding that
goes live at this boundary is judged for the tick that closes as any other (DESIGN CHOICE, log entry 110). -/
def bindBoundary (n : Nat) (stored : Bool) (s : State) : State :=
  let b := s.binding n
  let s := onlyIf (s.rbufExpected b && !stored) (judgeNode n 0x0 true) s
  if n ∈ s.evalQueue && b.areaWords ≠ 0 then s.modBind n fun B => { B with owed := true } else s.composeArea n

/-- The actions of each channel stand as CAPTURE has ended (R277). -/
def snapshotActions (s : State) : State :=
  each s.bindings (fun n s =>
    let acts := (List.range (s.binding n).channels).foldl (fun m k => Sparse.put 0 m k (s.action n k)) []
    s.modBind n fun B => { B with actions := acts }) s

/-! ### Evaluation (R275) -/

/-- The record of a report is read and evaluated. -/
def evaluate (n : Nat) (s : State) : State :=
  let b := s.binding n
  let base := s.newestRecord b.port b.rbuf
  let rd (i : Nat) : Nat := (s.ram (b.port / 8) (base + i)).toNat
  let w (i : Nat) : Nat := rd (6 + i)
  let stamp := rd 4 + 2 ^ 18 * rd 5
  let owed := (s.bind n).owed
  let s := { s.crossToward (b.port / 8) with evalQueue := s.evalQueue.filter (· != n) }
  let bad := malformed b (hKind (rd 1)) (plenOf (rd 0)) w
  let s := onlyIf b.isAIO (judgeRefused n (!bad)) s
  let s :=
    if bad then (s.bump F.GW_PFCNT0.MALF).judgeNode n 0x1 true
    else
      let vals := reportValues b w
      let s := ((s.judgeNode n 0x0 false).judgeNode n 0x1 false).judgeReport n w
      let s := ((s.holdReport n vals).readback n stamp vals).convertEdges n stamp w
      s.modBind n fun B => { B with newest := some vals, modeAck := if b.isAIO then bitsOf (w 9) 15 8 else B.modeAck }
  if owed then s.composeArea n else s

/-- A store into a buffer closes: a report to evaluate, or a HART reply to read (R275, R284). -/
def profileStored (n d : Nat) (s : State) : State :=
  each s.bindings (fun i s =>
    let b := s.binding i
    if b.port != n then s
    else if b.rbuf = d then { s with evalQueue := s.evalQueue ++ [i] }
    else if b.hen && b.hrbuf = d then s.modBind i fun B => { B with unread := B.unread ++ [s.clk] }
    else s) s

/-- A store into this buffer waits until the profile engine has read its record (R275). -/
def profileHolds (s : State) (n d : Nat) : Bool :=
  s.evalQueue.any fun i => (s.binding i).port == n && (s.binding i).rbuf == d

/-! ### EMIT of a command buffer (R277) -/

/-- The live binding whose CBUF a buffer is. -/
def cbufOf (s : State) (n d : Nat) : Option Nat :=
  s.bindings.find? fun i => let b := s.binding i; b.cben && b.port == n && b.cbuf == d

/-- The command of one output channel after the override, and the state that has recorded it. -/
def overrideCmd (i k c : Nat) (s : State) : Nat × State :=
  let b := s.binding i
  let a := Sparse.get 0 (s.bind i).actions k
  let bitVal (x : Nat) : Nat := if b.isAIO then x else b2n (bitOf x k)
  let v := if a = 3 then Sparse.get 0 (s.bind i).lastCmd k
    else if a = 4 then bitVal (s.policySubst b.policy) else if a = 5 then bitVal (s.policySafe b.policy) else c
  let s := if a ≤ 2 then s.modBind i fun B => { B with lastCmd := Sparse.put 0 B.lastCmd k c } else s
  if b.isAIO && bitOf b.mdrop k then
    (4000, if c = 4000 then s
      else (s.bump F.GW_PFCNT0.MDREF).modBind i fun B =>
        { B with mdRefused := if k ∈ B.mdRefused then B.mdRefused else B.mdRefused ++ [k] })
  else (v, s)

/-- The payload of a command buffer passes through the profile engine (R277, R273). -/
def profileEmit (i : Nat) (payload : List Word) (s : State) : List Word × State :=
  let b := s.binding i
  let p (k : Nat) : Nat := (payload.getD k 0).toNat
  if b.isDO then
    let r := (List.range 16).foldl (fun (a : Nat × State) k =>
      let o := overrideCmd i k (b2n (bitOf (p 0) k)) a.2; (a.1 + o.1 * 2 ^ k, o.2)) (0, s)
    ([wordOf r.1], r.2)
  else
    let r := (List.range 8).foldl (fun (a : List Word × State) k =>
      if b.output k then
        let o := overrideCmd i k (vOf (p k)) a.2; (a.1 ++ [wordOf o.1], o.2)
      else (a.1 ++ [wordOf (vOf (p k))], a.2)) ([], s)
    let out := r.1 ++ [wordOf (b.univ * 2 ^ 8), wordOf b.func0, wordOf b.func1]
    (out, r.2)

/-! ### HART tunnel (R283, R284) -/

/-- Clk in a millisecond. -/
def msClk : Nat := 200000

/-- A HART transaction or request fails: the host gets a packet of TAG 0x03. -/
def hartFail (n chan htag cause : Nat) (s : State) : State :=
  s.profPacket n 3 [pack [(chan, 15), (n, 0)], pack [(htag, 12), (cause, 0)]]

/-- An open transaction ends with a cause and event 0x03. -/
def hartEnd (n cause : Nat) (s : State) : State :=
  match (s.bind n).hart with
  | none => s
  | some h =>
    let s := s.modBind n fun B => { B with hart := none }
    (s.hartFail n h.chan h.htag cause).profEvent n 0x03 [pack [(h.htag, 12), (cause, 0)]]

/-- The engine takes a request packet of the host (R283). -/
def hartTake (h : List QWord) (s : State) : State :=
  let w := h.map (·.word.toNat)
  let w1 := (w.drop 1).headD 0
  let w2 := (w.drop 2).headD 0
  let n := bitsOf w1 10 0
  let chan := bitsOf w1 17 15
  let htag := bitsOf w2 17 12
  let nb := bitsOf w2 7 0
  let bytes := w.drop 3
  let b := s.binding n
  let reject (cause : Nat) : State := (s.bump F.GW_PFCNT1.HREJ).hartFail n chan htag cause
  if !b.en || !b.hen then reject 2
  else if (s.bind n).hart.isSome then reject 1
  else if bitsOf (w.headD 0) 17 12 != 1 || nb = 0 || 69 < nb || bytes.length != byteWords nb then reject 3
  else
    let payload := pack [(chan, 15), (htag, 8), (nb, 0)] :: bytes
    let rec' := recordOf false false (pack [(b.hpri, 7), (1, 4)]) (s.origin b.port * 2 ^ 8) payload.length 0 payload
    let s := ((s.crossAway (b.port / 8)).wrRams (b.port / 8) (s.txRecord b.port b.htbuf) rec').release b.port b.htbuf
    s.modBind n fun B => { B with hart := some ⟨chan, htag, s.clk + b.htmo * msClk⟩ }

/-- The engine reads a store into HRBUF (R284). -/
def hartRead (n : Nat) (s : State) : State :=
  let b := s.binding n
  let base := s.newestRecord b.port b.hrbuf
  let rd (i : Nat) : Nat := (s.ram (b.port / 8) (base + i)).toNat
  let plen := plenOf (rd 0)
  let p0 := rd 6
  let s := (s.crossToward (b.port / 8)).modBind n fun B => { B with unread := B.unread.drop 1 }
  let late := s.bump F.GW_PFCNT1.HLATE
  match (s.bind n).hart with
  | none => late
  | some h =>
    if 0 < plen && bitOf p0 14 && bitsOf p0 13 8 = h.htag && bitsOf p0 17 15 = h.chan then
      let nb := bitsOf p0 7 0
      let bytes := ((List.range (plen - 1)).map fun i => rd (7 + i)).take (byteWords nb)
      (s.modBind n fun B => { B with hart := none }).profPacket n 2
        ([pack [(h.chan, 15), (n, 0)], pack [(h.htag, 12), (nb, 0)]] ++ bytes)
    else late

/-- An open transaction reaches its expiry (R284). -/
def hartExpire (n : Nat) (s : State) : State := (s.bump F.GW_PFCNT1.HTMO).hartEnd n 0

/-- A binding entry goes live with a change other than of POLICY: its condition state, held values, last commands and
HART transaction are cleared, and an evaluation in progress is discarded (R268). The deviation counts and the refusals still
to raise are cleared with the condition state; the values of the last area and the newest report stay (DEDUCED, log entry 96). -/
def clearBind (n : Nat) (s : State) : State :=
  let s := s.hartEnd n 4
  let b := s.binding n
  { s with evalQueue := s.evalQueue.filter (· != n) }.modBind n fun B =>
    { B with conds := [], held := [], lastCmd := [], devCount := [], mdRefused := [], owed := false, area := none
             unread := if b.en && b.hen then B.unread else [] }

end State

/-! ### The commands -/

/-- REPORT_EVALUATION (R275): the report of binding `n`, in the order of the closes. -/
def execReportEvaluation (n : Nat) (s : State) : Outcome :=
  ready s fun s => if s.evalQueue.head? = some n then s.evaluate n else s

/-- PROFILE_AREA_WRITE (R280): in CAPTURE, in ascending binding number; a binding that waits for its evaluation is
written when that ends. -/
def execProfileAreaWrite (n : Nat) (s : State) : Outcome :=
  ready s fun s =>
    if s.rd F.TK_STATUS.PHASE = 0 && (s.binds.all fun e => !(e.1 < n && e.2.area.isSome)) then s.writeArea n else s

/-- HART_REQUEST (R283): the engine takes the next packet of the bulk queue bound 0x4. -/
def execHartRequest (s : State) : Outcome :=
  ready s fun s =>
    match s.boundQueue 4 with
    | none => s
    | some q => match (s.markNow q).takePacket q with
      | none => s
      | some (h, t) => if h.any (·.bad.isSome) then t.badPacket q h else t.hartTake h

/-- HART_REPLY (R284): a store into HRBUF is read. A transaction that had expired when the store closed has failed before. -/
def execHartReply (n : Nat) (s : State) : Outcome :=
  ready s fun s =>
    match (s.bind n).unread with
    | [] => s
    | k :: _ =>
      let late := match (s.bind n).hart with | some h => h.expires < k | none => false
      (onlyIf late (·.hartExpire n) s).hartRead n

/-- HART_TIMEOUT (R284): an open transaction reaches its expiry; a reply that has come by then, in that clk or before, wins
(R10). -/
def execHartTimeout (n : Nat) (s : State) : Outcome :=
  ready s fun s =>
    match (s.bind n).hart with
    | none => s
    | some h =>
      let s := s.advanceClk h.expires
      let s := each ((s.bind n).unread.filter (· ≤ h.expires)) (fun _ => State.hartRead n) s
      if (s.bind n).hart.isSome then s.hartExpire n else s

end Sys2Proof.Machine
end

