-- ==== Sys2Proof/Machine/Events.lean ====
section
/-! DEFINITION. The event merger (R220, R392): posted records enter the event queue one at a time. -/

namespace Sys2Proof.Machine

/-- A record of a lower rank among those posted in one clk (R220). -/
def EventRec.before (a b : EventRec) : Bool :=
  let k (e : EventRec) : Nat := pack [(e.cls, 60), (e.level % 16, 56), (e.unit % 2 ^ 40, 16), (e.code, 0)]
  k a < k b

/-- The first record to push, and the others: the earliest clk, then the order of R220. -/
def firstRecord : List EventRec → Option (EventRec × List EventRec)
  | [] => none
  | r :: t => match firstRecord t with
    | none => some (r, t)
    | some (x, rest) => if x.time = r.time && x.before r then some (x, r :: rest) else some (r, t)

namespace State

/-- An event record as words (R392). -/
def eventWords (seq cls code time : Nat) (body : List Nat) : List Nat :=
  pack [(cls, 12), (code, 4), (seq % 16, 0)] :: words 2 time ++ body

/-- The events-lost record goes into the reserved space, once CREDIT is 5 or more (R220). -/
def pushLost (s : State) : State :=
  let m := s.merger
  if m.lost = 0 || s.credit qEvent < 5 then s
  else
    let s := { s with merger := { m with lost := 0, evseq := (m.evseq + 1) % 16 } }
    s.pushPacket qEvent (eventWords m.evseq 0x07 0x02 m.firstLost [pack [(qEvent, 8)], min m.lost (2 ^ 18 - 1)])

/-- The next posted record is pushed, or lost where CEIL − 8 leaves no credit for it (R220). -/
def pushRecord (s : State) : State :=
  let s := s.pushLost
  match firstRecord s.merger.posted with
  | none => s
  | some (r, rest) =>
    let m := s.merger
    let ws := eventWords m.evseq r.cls r.code r.time r.body
    let s := { s with merger := { m with posted := rest, evseq := (m.evseq + 1) % 16 } }
    if ws.length + 8 ≤ s.credit qEvent then s.pushPacket qEvent ws
    else { s with merger :=
      { s.merger with lost := s.merger.lost + 1, firstLost := if s.merger.lost = 0 then r.time else s.merger.firstLost } }

/-- The tick close pushes every record posted (R49). -/
def flushEvents (s : State) : State := each s.merger.posted (fun _ => pushRecord) s

end State

/-- EVENT_RECORD_PUSH (R220, R392). -/
def execEventRecordPush (s : State) : Outcome := ready s (·.pushRecord)

/-- EVENTS_LOST (R220): event 0x02 of class 0x07. -/
def execEventsLost (s : State) : Outcome := ready s (·.pushLost)

end Sys2Proof.Machine
end

