-- ==== Sys2Proof/Machine/Tick.lean ====
section
/-! DEFINITION. The tick unit (chapter 2): phases, deadlines and reactions, device time, the discipline of the tick
source. -/

namespace Sys2Proof.Machine
namespace State

/-! ### Time (R42, R56) -/

/-- Offset of device time from the boundary of the tick. -/
def offset (s : State) : Nat := s.tick.time - s.tick.boundary

/-- The first clk at or past the next boundary has come: its device time is that of the boundary (R42). -/
def noteCrossing (s : State) : State :=
  if s.tick.crossed.isNone && s.boundaryHere then s.modTick fun u => { u with crossed := some u.time } else s

/-- One clk passes (R56): device time grows by 1, or by 0 or 2 in a slew clk, of which 256 consecutive clk hold at
most one, after a clk with bit 0 of device time 0 (R419). In which clk of the following tick a slew falls is open (log
entry 4); it falls at once where no more than 258 clk are left for each slew still to make (R59). -/
def passClk (s : State) : State :=
  let u := s.tick.correct s.rateNow 1
  let may := u.slew != 0 && u.time % 2 == 0 && decide (u.lastSlew + 256 ≤ u.clk)
  let must := u.slewBy - u.clk ≤ 258 * (u.slew.natAbs + 1)
  let (v, s) := if may && !must then s.draw else (1, s)
  let d : Int := if may && v % 2 = 1 then u.slew.sign else 0
  let up : Nat := if d = 1 then 2 else if d = -1 then 0 else 1
  (s.modTick fun _ => { u.slewed d (u.clk + 1) with time := u.time + up, clk := u.clk + 1 }).noteCrossing

/-! ### Phases (Table 2-1) -/

def phase (s : State) : Nat := s.rd F.TK_STATUS.PHASE

/-- A work item of CAPTURE or EMIT: port and buffer. -/
abbrev Item := Nat × Nat

/-- The transfers that CAPTURE has still to make. -/
def captureLeft (s : State) : List Item := s.ports.flatMap fun e => e.2.listed.map (e.1, ·)

/-- The EMIT transfers that have not claimed S0 yet. -/
def emitLeft (s : State) : List Item := s.ports.flatMap fun e => e.2.emitDue.map (e.1, ·)

/-- The EMIT transfers that have claimed S0. -/
def emitOpen (s : State) : List Item := s.ports.flatMap fun e => e.2.xferOpen.toList.map (e.1, ·.buf)

def blockOf (i : Item) : Nat := i.1 / 8
def regionOf (i : Item) : Nat := i.1 / 24

/-- A deadline event (Table 2-11); code 0x01 is written once for each unit and phase in a tick (R51). -/
def missEvent (code level ph reaction unit tick items : Nat) (s : State) : State :=
  let key := 0x2010000 + (level * 4 + ph) * 128 + unit
  if code = 1 && s.once.contains key then s
  else
    let s := if code = 1 then { s with once := key :: s.once } else s
    s.post 0x02 code unit ([pack [(level, 16), (ph, 14), (reaction, 12), (unit, 0)]] ++ words 2 tick ++
      [min items (2 ^ 18 - 1)]) level

/-- Knots of the lists that have not ended: COUNT less what they have executed (Table 2-11). -/
def knotsLeft (s : State) : Nat :=
  s.gateway.lanes.foldl (fun a e =>
    a + (match e.2.cur with | some c => c.2.2 | none => 0) + e.2.todo.foldl (fun a r => a + r.count) 0) 0

/-- MAP starts in clk `t`, or is stopped at once where SKIP stopped it before its start (R52, R259). -/
def enterMap (t : Nat) (s : State) : State := (s.wr F.TK_STATUS.PHASE 1).startMap t

/-- EMIT starts; a new active device sends as usual from here (R380). -/
def enterEmit (s : State) : State :=
  let s := onlyIf s.pair.preEmit.isSome (·.modPair fun p => { p with preEmit := none }) s
  (s.wr F.TK_STATUS.PHASE 2).modTick fun u => { u with phaseFrom := u.clk + 1 }

/-- MAP ends, completed or stopped: the digest closes, and EMIT starts (R255, R257, R259). -/
def endMap (void : Bool) (s : State) : State :=
  let s := (s.closeDigest void).endShadow
  (s.wr F.TK_DONE_MAP.DONE s.offset).enterEmit

/-- CAPTURE ends, completed or stopped: MAP starts in the next clk (R45, R277). -/
def endCapture (s : State) : State :=
  let s := s.snapshotActions.wr F.TK_DONE_CAPTURE.DONE s.offset
  let s := s.enterMap (s.clk + 1)
  if s.tick.mapSkipped then (s.modGw fun g => { g with lanes := [] }).endMap true else s

/-- The work of the tick close (R49). -/
def closeTick (s : State) : State :=
  ((s.send (.digest (s.rd F.GW_DIGEST.DIGEST) s.gateway.digestVoid)).flushEvents).modTick fun u => { u with closeDone := true }

/-- The tick close (R49): the digest of the tick goes to the partner and the event records are flushed. It takes at
most 256 clk; with fewer left before the boundary, whether it finishes is open (log entry 4). -/
def tickClose (s : State) : State :=
  let left := s.nextBoundary - s.tick.time
  if 256 ≤ left then s.closeTick
  else if left ≤ 1 then s
  else
    let (v, s) := s.draw
    if v % 2 = 0 then s.closeTick else s

/-- The ports that hold a live descriptor. -/
def portsInUse (s : State) : List Nat :=
  ((Sparse.range s.regs (descKey 0 0 0) (descKey 96 0 0)).map fun e => (e.1 - descKey 0 0 0) / 512).eraseDups

/-- EMIT ends other than by the boundary cut: releases, then HOUSE with the tick close (R200, R49). -/
def endEmit (s : State) : State :=
  let s := each s.portsInUse releaseAfterEmit s
  ((s.wr F.TK_DONE_EMIT.DONE s.offset).wr F.TK_STATUS.PHASE 3).tickClose

/-! ### Deadlines and reactions (Tables 2-2 to 2-4) -/

/-- Offset of a phase deadline as live in this tick. -/
def deadline (s : State) : TickPhase → Nat
  | .capture => s.rd F.TK_DL_CAPTURE.OFFSET
  | .map => s.rd F.TK_DL_MAP.OFFSET
  | .emit => s.rd F.TK_DL_EMIT.OFFSET
  | .house => s.nextBoundary - s.tick.boundary

/-- The ports of a block, of a region. -/
def blockPorts (b : Nat) : List Nat := (List.range 8).map (8 * b + ·)
def regionPorts (g : Nat) : List Nat := (List.range 24).map (24 * g + ·)

/-- HOLD of a CAPTURE or MAP miss: EMIT of this tick makes no transfer of these ports. The buffers are released as
scheduled (Table 2-4, R201). -/
def holdOn (l : List Nat) (s : State) : State :=
  let s := s.modTick fun u => { u with holdPorts := u.holdPorts ++ l.filter (!u.holdPorts.contains ·) }
  each (s.emitLeft.filter fun i => l.contains i.1) (fun i => dropEmit i.1 i.2 false) s

/-- A reaction is applied to late transfers of CAPTURE or EMIT by the unit whose EMIT scope is `scope`. A transfer that
has claimed S0 is never dropped (R201). -/
def react (ph : TickPhase) (code : Nat) (items : List Item) (scope : List Nat) (s : State) : State :=
  match ph, code with
  | .capture, 1 => s.holdOn scope
  | .capture, 2 => each items (fun i => skipCapture i.1 i.2) s
  | .emit, 1 => each (items.filter s.emitLeft.contains) (fun i => dropEmit i.1 i.2 false) s
  | .emit, 2 => each (items.filter s.emitLeft.contains) (fun i => dropEmit i.1 i.2 true) s
  | _, _ => s

/-- A phase that a reaction has left without work is stopped in the clk of its deadline. EMIT goes on while a transfer
that has claimed S0 runs, and ends with it (log entry 87). -/
def stopIfEmpty (ph : TickPhase) (s : State) : State :=
  match ph with
  | .capture =>
    let s := s.applyDue
    if s.phase = 0 && s.captureLeft = [] && s.areasLeft = [] && s.gateway.applying = [] && s.pair.listClose then s.endCapture else s
  | .emit => if s.phase = 2 && s.emitLeft = [] && s.emitOpen = [] then s.endEmit else s
  | _ => s

/-- The deadline of CAPTURE or EMIT passes with the phase incomplete (R50 to R53). `late`: the incomplete transfers;
`portB`: those whose last request for port B was refused. -/
def missTransfers (ph : TickPhase) (late portB : List Item) (s : State) : State :=
  let cap := ph == .capture
  let code := if cap then 0 else 2
  let blkR := s.rd (if cap then F.TK_REACT.BLK_CAP else F.TK_REACT.BLK_EMIT)
  let rgnR := s.rd (if cap then F.TK_REACT.RGN_CAP else F.TK_REACT.RGN_EMIT)
  let chipR := s.rd (if cap then F.TK_REACT.CHIP_CAP else F.TK_REACT.CHIP_EMIT)
  let inB (b : Nat) := portB.filter (blockOf · == b)
  let inR (g : Nat) := late.filter (regionOf · == g)
  -- counts and events of the levels
  let s := each (List.range 12) (fun b s => onlyIf (inB b != []) (fun s =>
    (s.bump (if cap then F.BK_DLMISS.BLK_CAP b else F.BK_DLMISS.BLK_EMIT b) (inB b).length).missEvent
      1 1 code blkR b s.tickNo (inB b).length) s) s
  let s := each (List.range 4) (fun g s => onlyIf (inR g != []) (fun s =>
    (s.bump (if cap then F.RG_DLMISS.RGN_CAP g else F.RG_DLMISS.RGN_EMIT g) (inR g).length).missEvent
      1 2 code rgnR g s.tickNo (inR g).length) s) s
  let areas := if cap then s.areasLeft else []
  let s := (s.bump (if cap then F.TK_MISS.CAPTURE else F.TK_MISS.EMIT)).missEvent 1 3 code chipR 0 s.tickNo
    late.length
  let s := s.modTick fun u => if cap then { u with missCap := true } else { u with missEmit := true }
  -- the reaction of the lowest level that counted each item
  let s := each (List.range 12) (fun b s => onlyIf (inB b != []) (react ph blkR (inB b) (blockPorts b)) s) s
  let up := late.filter fun i => blkR == 3 || !portB.contains i
  let s := each (List.range 4) (fun g s => onlyIf (up.any (regionOf · == g))
    (react ph rgnR (up.filter (regionOf · == g)) (regionPorts g)) s) s
  let chip := if rgnR = 3 then up else []
  if chip = [] && areas = [] && late != [] then s.stopIfEmpty ph
  else
    let s := onlyIf (chipR == 3) raiseChip s
    let r := if chipR = 3 then 1 else chipR
    let s := react ph r chip (List.range 96) s
    let s := onlyIf (cap && r == 2) (each areas skipArea) s
    s.stopIfEmpty ph

/-- The deadline of MAP passes with MAP incomplete (Table 2-4). -/
def missMapDeadline (s : State) : State :=
  let r := s.rd F.TK_REACT.CHIP_MAP
  let items := if s.phase = 0 then s.knotTotal else s.knotsLeft
  let s := ((s.bump F.TK_MISS.MAP).missEvent 1 3 1 r 0 s.tickNo items).modTick fun u => { u with missMap := true }
  let s := onlyIf (r == 3) raiseChip s
  if r = 1 || r = 3 then s.holdOn (List.range 96)
  else if r = 2 then
    if s.phase = 0 then s.modTick fun u => { u with mapSkipped := true }
    else
      let s := (s.landUpTo (s.clk + 5)).modGw fun g =>
        { g with lanes := g.lanes.map fun e => (e.1, { e.2 with todo := [], cur := none }) }
      s.endMap true
  else s

/-! ### The discipline of the tick source (R58 to R64) -/

/-- The source in use: SRC2 in a fallback, the tether on a standby whose SRC is internal, else SRC (R61, R372). -/
def sourceNow (s : State) : Nat :=
  if s.flag F.TK_STATUS.FALLBACK then s.rd F.TK_SRC.SRC2
  else if s.isStandby && s.rd F.TK_SRC.SRC = 0 then 2 else s.rd F.TK_SRC.SRC

/-- Enters a state of Table 2-6. -/
def setTick (st : Nat) (s : State) : State :=
  let s := s.wr F.TK_STATUS.STATE st
  let src := s.sourceNow
  let s := s.wr F.TK_STATUS.SRCACT src
  let s := s.wr F.TK_STATUS.SYSTIME (b2n ((src == 1 || src == 2) && st == 3))
  s.modTick fun u => { u with good := 0, holdTicks := 0 }

/-- Events 0x03 to 0x06 and 0x08 (R71). -/
def tickEvent (code : Nat) (s : State) : State := s.post 0x02 code 0 (0 :: words 2 s.tickNo)

/-- The tick unit returns to SRC (Table 2-7): ACQUIRE, or FREE for an internal source. -/
def returnToSource (s : State) : State :=
  let s := s.wr F.TK_STATUS.FALLBACK 0
  if s.sourceNow = 0 then (s.modTick fun u => { u with adopted := none }).setTick 0
  else (s.modTick fun u => { u with lastRef := u.clk }).setTick 1

/-- The conditions of R47 for a period. -/
def periodOk (s : State) (p : Nat) : Bool :=
  6250 ≤ p && p ≤ 3200000 && 64 ≤ s.rd F.TK_DL_CAPTURE.OFFSET &&
    s.rd F.TK_DL_CAPTURE.OFFSET + 1064 ≤ s.rd F.TK_DL_MAP.OFFSET &&
    s.rd F.TK_DL_MAP.OFFSET < s.rd F.TK_DL_EMIT.OFFSET && s.rd F.TK_DL_EMIT.OFFSET + 256 ≤ p

/-- The period of the tick that a boundary opens (R59, R61). With an external source that has announced none yet, it is
that of the tick before (log entry 84). -/
def nextPeriod (s : State) : Nat :=
  if s.sourceNow = 0 then s.tick.adopted.getD (s.rd F.TK_PERIOD.PERIOD) else s.tick.adopted.getD s.tick.period

/-- A difference of device times, which have 54 bits (R41). -/
def signed54 (d : Int) : Int := (d + 2 ^ 53) % 2 ^ 54 - 2 ^ 53

/-- A step (R62): device time moves by −e, the tick number becomes the received one, and the tick in progress runs
to `dest`. The boundary of the tick in progress moves with device time; what is counted in clk stays. Device time wraps at
2^54, so that the model adds a whole wrap where the tick in progress would have begun before 0. -/
def stepTime (e : Int) (num : Nat) (dest : Int) (s : State) : State :=
  let before := s.now
  let wrap : Int := if (s.tick.boundary : Int) < e then 2 ^ 54 else 0
  let time : Int := s.tick.time - e + wrap
  let s := s.modTick fun u =>
    { u with time := time.toNat, boundary := ((u.boundary : Int) - e + wrap).toNat
             stepTo := some (time + signed54 (dest - time)).toNat, crossed := none }
  let s := s.wr F.TK_TICKNO.TICKNO num
  s.post 0x02 0x07 0 (words 3 before ++ words 3 s.now)

/-- The rate correction that the discipline finds: the spec bounds it by 300 ppm and states where it tends (R59). Its
value is open (log entry 4). -/
def drawRate (s : State) : State :=
  let (v, s) := s.draw
  s.wr F.TK_PHERR.RATE (modBits 18 ((v % 10067 : Nat) - 5033))

/-- A valid reference with phase error `e`, received tick number, announced period, and the reference's boundary in
the source's time (R58 to R64). `beacon`: its source is a beacon. A reference whose period fails the conditions of R47
counts as missing and brings no event, and an invalid or discarded reference leaves the run of consecutive valid ones as
it is (log entry 85). -/
def reference (e : Int) (num period : Nat) (base : Int) (beacon : Bool) (s : State) : State :=
  let st := s.rd F.TK_STATUS.STATE
  let lim : Int := s.rd F.TK_HOPDLY.LOCKLIM
  let far := lim < e || e < -lim
  if st = 0 then s
  else if !s.periodOk period then s.bump F.TK_WORDERR.MISSING
  else if beacon && far && (st = 2 || st = 3) then s.bump F.TK_WORDERR.DISCARD
  else
    let near := -10 ≤ e && e ≤ 10
    let sat : Int := max (-131071) (min 131071 e)
    let s := s.wr F.TK_PHERR.PHERR (modBits 18 sat)
    let s := s.modTick fun u => { u with adopted := some period, lastRef := u.clk, slew := -e, slewBy := u.clk + period }
    let s := s.drawRate
    if st = 1 && far && s.flag F.TK_CTRL.STEP_EN then
      ((s.stepTime e num (base + period)).modTick fun u => { u with slew := 0 }).setTick 2
    else
      let own := s.tickNo
      let s := if own = num then s
        else ((s.wr F.TK_TICKNO.TICKNO num).bump F.TK_WORDERR.NUMADOPT).post 0x02 0x09 0 (words 2 own ++ words 2 num)
      if st = 1 || st = 4 then s.setTick 2
      else if st = 2 then
        let g := if near then s.tick.good + 1 else 0
        if 8 ≤ g then (s.setTick 3).tickEvent 0x05 else s.modTick fun u => { u with good := g }
      else if far then (s.setTick 2).tickEvent 0x06
      else s

/-- CHK of a tick word (R66). -/
def tickChk (tickNo btime period flags : Nat) : Nat :=
  hcrc (bitsMsb 36 tickNo ++ bitsMsb 54 btime ++ bitsMsb 22 period ++ bitsMsb 4 flags)

/-- The tick word that the device sends for the tick just opened (Table 2-9). -/
def outWord (s : State) : List Bool :=
  let st := s.rd F.TK_STATUS.STATE
  let fl := pack [(b2n (s.sourceNow == 0), 3), (b2n (st == 3 || st == 0), 2), (b2n (st == 4), 1)]
  bitsMsb 4 0xD ++ bitsMsb 36 s.tickNo ++ bitsMsb 54 (s.tick.boundary % 2 ^ 54) ++ bitsMsb 22 s.tick.period ++ bitsMsb 4 fl ++
    bitsMsb 8 (tickChk s.tickNo (s.tick.boundary % 2 ^ 54) s.tick.period fl)

/-! ### The tick outputs (R65, Table 2-8) -/

/-- Clk since the boundary. -/
def sinceBoundary (s : State) : Nat := s.clk - s.tick.boundaryClk

/-- The level of TICK_OUT. -/
def tickOutPin (s : State) : Bool := s.flag F.TK_CTRL.OUT_EN && s.sinceBoundary < 16

/-- The level of TICKW_OUT. -/
def tickwOutPin (s : State) : Bool :=
  s.flag F.TK_CTRL.OUT_EN && 400 ≤ s.sinceBoundary && s.tick.tickWord.getD ((s.sinceBoundary - 400) / 8) false

end State

/-! ### The commands -/

/-- The deadline of a phase passes (R46). `portB`: the transfers whose last request for port B was refused. HOUSE has the
boundary for its deadline. -/
def State.phaseDeadline (ph : TickPhase) (portB : List (Nat × Nat)) (s : State) : State :=
  let t := s.tick.boundary + s.deadline ph
  if s.nextBoundary ≤ t then s
  else
    match ph with
    | .capture =>
      if s.phase ≠ 0 || s.tick.missCap then s
      else let s := s.advance t; s.missTransfers .capture s.captureLeft (s.captureLeft.filter (portB.contains ·))
    | .map => if 1 < s.phase || s.tick.missMap then s else (s.advance t).missMapDeadline
    | .emit =>
      if 2 < s.phase || s.tick.missEmit then s
      else
        let s := s.advance t
        let late := s.emitLeft ++ s.emitOpen
        s.missTransfers .emit late (late.filter (portB.contains ·))
    | .house => s

/-- A store waits for this listed buffer (R198). -/
def State.storeWaits (s : State) (n d : Nat) : Bool :=
  (s.cell (s.servingCell n)).due.any fun x => x.dest == .buffer d

/-- The blocks of its region that a crossbar's rotation considers before block `b`; `last`: its last grants (R33). -/
def State.crossBefore (last : Sparse Nat) (b : Nat) : List Nat :=
  (((List.range 3).map fun k => (Sparse.get 2 last (b / 3) + 1 + k) % 3).takeWhile (· != b % 3)).map (b / 3 * 3 + ·)

/-- One transfer of CAPTURE. -/
def State.captureOne (i : State.Item) (s : State) : State := (s.crossToward (State.blockOf i)).captureBuffer i.1 i.2

/-- The transfers that CAPTURE makes before that of a buffer: those of buffers with a waiting store, where it has none
(R198), and one of each block that the region arbiter grants first (R33). Which of the block's transfers that is, the spec
leaves open: the first in the order of ports (log entry 107). -/
def State.capturesFirst (p d : Nat) (s : State) : State :=
  let waits := s.storeWaits p d
  let s := if waits then s else each (s.captureLeft.filter fun i => s.storeWaits i.1 i.2) captureOne s
  each (crossBefore s.crossIn (p / 8)) (fun b s =>
    match s.captureLeft.find? fun i => State.blockOf i == b && s.storeWaits i.1 i.2 == waits with
    | some i => s.captureOne i
    | none => s) s

/-- CAPTURE_TRANSFER (R197, R198, R33). -/
def execCaptureTransfer (p : PortId) (d : BufId) (s : State) : Outcome :=
  ready s fun s =>
    if s.phase ≠ 0 || !(s.port p).listed.contains d.val then s else (s.capturesFirst p d).captureOne (p, d)

/-- The phase now running has a clk before the boundary in which it may complete (R55). -/
def State.inPhase (s : State) : Bool := !(s.advanceClk s.tick.phaseFrom).boundaryHere

/-- CAPTURE completes (R45): transfers, host-write application and area writes are done. -/
def State.captureComplete (s : State) : State :=
  if s.phase = 0 && s.captureLeft = [] && s.areasLeft = [] && s.pair.listClose && s.inPhase
  then (s.advanceClk s.tick.phaseFrom).applyDue.endCapture else s

/-- KNOT_ISSUE (R255, R256). -/
def execKnotIssue (lane : Fin 8) (differs : Bool) (s : State) : Outcome :=
  ready s fun s => if s.phase = 1 then s.issueKnot lane differs else s

/-- MAP completes (R255): 40 clk after the last knot issued; in the first clk of MAP where no list runs. -/
def State.mapComplete (s : State) : State :=
  if s.phase ≠ 1 || (List.range 8).any fun l => (s.laneDue l).isSome then s
  else
    let u := s.advanceClk (match s.gateway.lastIssue with | some u => u + 40 | none => s.gateway.mapStart)
    if u.boundaryHere then s else (u.landUpTo (u.clk + 5)).endMap false

/-- The EMIT transfer of a buffer can claim S0 (R204). -/
def State.emitReady (s : State) (i : State.Item) : Bool :=
  (s.port i.1).emitDue.contains i.2 && (s.port i.1).xferOpen.isNone && !s.busy i.1 i.2

/-- One claim of EMIT. -/
def State.emitOne (i : State.Item) (s : State) : State := (s.claimEmit i.1 i.2).crossAway (State.blockOf i)

/-- The claims that the region arbiter grants before that of block `b`: one of each block before it in the rotation (R33; log
entry 107). -/
def State.claimsFirst (b : Nat) (s : State) : State :=
  each (crossBefore s.crossOut b) (fun b' s =>
    match s.emitLeft.find? fun i => State.blockOf i == b' && s.emitReady i && !s.rewriting i.1 i.2 with
    | some i => s.emitOne i
    | none => s) s

/-- EMIT_TRANSFER (R204, R277, R33): the claim of S0, then the payload and the close. -/
def execEmitTransfer (p : PortId) (d : BufId) (part : Part) (s : State) : Outcome :=
  ready s fun s =>
    let s := if part = .close then s
      else if s.phase = 2 && s.emitReady (p, d) && s.inPhase
      then ((s.advanceClk (max s.tick.phaseFrom (s.rewriteEnd p d))).claimsFirst (p / 8)).emitOne (p, d)
      else s
    match (s.port p).xferOpen with
    | none => s
    | some x =>
      if part = .claim || x.buf ≠ d.val then s
      else
        let s := s.crossAway (p / 8)
        match s.cbufOf p d with
        | some i => let r := s.profileEmit i (s.emitArea x); r.2.closeEmit p x r.1
        | none => s.closeEmit p x (s.emitArea x)

/-- EMIT_COMPLETE (R200): every transfer is made or dropped. -/
def execEmitComplete (s : State) : Outcome :=
  ready s fun s =>
    if s.phase = 2 && s.emitLeft = [] && s.emitOpen = [] && s.inPhase then (s.advanceClk s.tick.phaseFrom).endEmit else s

/-- RELEASE_TIME (Table 7-8): the first clk at or after B(n) + 16 × RELOFS. With XFER 1 the release is the later of
that clk and the buffer's EMIT transfer. -/
def execReleaseTime (p : PortId) (d : BufId) (s : State) : Outcome :=
  ready s fun s =>
    let D := s.desc p d
    let t := s.tick.boundary + 16 * D.relofs
    if !(s.port p).relDue.contains d.val || s.nextBoundary ≤ t then s
    else
      let s := (s.advance t).modPort p fun P => { P with relDue := P.relDue.filter (· != d.val) }
      let waits := D.xfer && ((s.port p).emitDue.contains d.val || (s.port p).xferOpen.map (·.buf) == some d.val)
      if waits then s else s.release p d

/-- TICK_WORD_RECEIVED (R67): a TICK_IN edge sampled at `edge` and its tick word. One whose first SYNC edge does not come
384 to 416 clk later is no tick word, and the reference's is missing (log entry 95). -/
def execTickWordReceived (edge : BitVec 54) (w : TickWord) (s : State) : Outcome :=
  ready s fun s =>
    if s.sourceNow ≠ 1 || s.rd F.TK_STATUS.STATE = 0 then s
    else if w.gap.toNat < 384 || 416 < w.gap.toNat then (s.bump F.TK_WORDERR.MISSING).tickEvent 0x08
    else if !w.syncOk || w.chk.toNat ≠ State.tickChk w.tickNo.toNat w.btime.toNat w.period.toNat w.flags.toNat then
      (s.bump F.TK_WORDERR.CRCERR).tickEvent 0x08
    else
      s.reference ((edge.toNat : Int) - 2 - s.rd F.TK_HOPDLY.HOPDLY - w.btime.toNat) w.tickNo.toNat w.period.toNat
        w.btime.toNat false

/-- TICK_WORD_MISSING (R67): no tick word follows a TICK_IN edge. -/
def execTickWordMissing (s : State) : Outcome :=
  ready s fun s =>
    if s.sourceNow ≠ 1 || s.rd F.TK_STATUS.STATE = 0 then s else (s.bump F.TK_WORDERR.MISSING).tickEvent 0x08

/-- TETHER_TICK_MARK (R58, R372, R373): a tick mark of the partner, with the tether's own delay as it is measured in each
tick. -/
def execTetherTickMark (edge : TetherEdge) (btime : BitVec 54) (tickNo : BitVec 36) (period : BitVec 22) (s : State) :
    Outcome :=
  ready s fun s =>
    if s.rd F.SP_PSTAT.LINK ≠ 2 then s
    else
      let s := s.wr F.SP_TDLY.DELAY edge.delay.toNat
      if s.sourceNow ≠ 2 then s
      else s.reference ((edge.clk.toNat : Int) - 2 - s.rd F.SP_TDLY.DELAY - btime.toNat) tickNo.toNat period.toNat btime.toNat false

/-- REFERENCE_MISSING (Table 2-7): no valid reference within P + 1,000 clk of the expected one. -/
def execReferenceMissing (s : State) : Outcome :=
  ready s fun s =>
    let st := s.rd F.TK_STATUS.STATE
    if st = 2 || st = 3 then
      let s := s.advanceClk (s.tick.lastRef + 2 * s.tick.period + 1000)
      ((s.bump F.TK_WORDERR.MISSING).setTick 4).tickEvent 0x03
    else s

/-- HOLDOVER_FALLBACK (R61). -/
def execHoldoverFallback (s : State) : Outcome :=
  ready s fun s =>
    let e := s.rd F.TK_SRC.HOLD_EXP
    if s.rd F.TK_STATUS.STATE ≠ 4 || e = 15 || s.tick.holdTicks < 2 ^ e || s.rd F.TK_SRC.SRC2 = s.rd F.TK_SRC.SRC ||
        s.flag F.TK_STATUS.FALLBACK then s
    else
      let s := s.wr F.TK_STATUS.FALLBACK 1
      let s := (s.setTick (if s.rd F.TK_SRC.SRC2 = 0 then 0 else 1)).modTick fun u => { u with lastRef := u.clk }
      s.tickEvent 0x04

end Sys2Proof.Machine
end

