-- ==== Sys2Proof/Machine/Spares.lean ====
section
/-! DEFINITION. Spares and wear (R343 to R369): the mirror cell, cell faults and takeover, engine and lane failures,
scrubbing, row retirement, the aging monitor and the wear ledger. -/

namespace Sys2Proof.Machine

/-! ### RAM rows (Tables 13-5 and 13-6) -/

/-- Ledger KIND of a row of a RAM, and its RAM code (Table 13-6). -/
def ramKind : RamId → Nat × Nat
  | .block b => (3, b)
  | .captured => (4, 1)
  | .emit => (4, 2)
  | .knot => (4, 3)
  | .scale => (4, 4)
  | .queue => (4, 5)
  | .patch => (4, 6)

/-- Spare rows of a RAM (Table 13-5). -/
def spareRows : RamId → Nat
  | .block _ => 32
  | .captured | .emit => 16
  | .knot => 32
  | .scale => 8
  | .queue => 16
  | .patch => 4

/-- Rows of a RAM (Table 13-5). -/
def ramRows : RamId → Nat
  | .block _ => 512
  | .captured | .emit => 1024
  | .knot => 4096
  | .scale => 192
  | .queue => 2240
  | .patch => 64

/-- The key of a row. -/
def rowKey (r : RamId) (row : Nat) : Nat := let k := ramKind r; ((k.1 * 16 + k.2) * 4096) + row

/-- The field that counts the spare rows in use. -/
def usedField : RamId → Field
  | .block b => F.BK_ROWS.USED b
  | .captured => F.SP_CROWS.CAPT
  | .emit => F.SP_CROWS.EMIT
  | .knot => F.SP_CROWS.KNOT
  | .scale => F.SP_CROWS.SCALE
  | .queue => F.SP_CROWS.QUEUE
  | .patch => F.SP_CROWS.PATCH

namespace State

/-! ### Cells of a block -/

def cellFailed (s : State) (c : Nat) : Bool := s.flag (failedField c)

/-- The mirror cell of a block. -/
def mirror (b : Nat) : Nat := 9 * b + 8

/-- The port index that the mirror cell of a block serves, if any. -/
def mirrorServes (s : State) (b : Nat) : Option Nat := (List.range 8).find? fun k => s.rd (slotField b k) == 8

/-- The mirror cell can take over a port now (R349). -/
def mirrorFree (s : State) (b : Nat) : Bool :=
  !s.cellFailed (mirror b) && (s.mirrorServes b).isNone && (s.block b).takeover.isNone && (s.block b).returning.isNone

/-- The bus of port `n` is idle: no frame has started since its last frame boundary. -/
def busIdle (s : State) (n : Nat) : Bool := (s.port n).busySince.isNone

/-- SYS_FAULT.UNSERVED shows whether any port is unserved (R431). -/
def refreshUnserved (s : State) : State :=
  s.wr F.SYS_FAULT.UNSERVED (b2n ((List.range 12).any fun b => (s.block b).unserved != []))

/-- A port has no cell (R349): event 0x03. -/
def markUnserved (n c cause : Nat) (s : State) : State :=
  let s := s.modBlock (n / 8) fun B => { B with unserved := if n ∈ B.unserved then B.unserved else B.unserved ++ [n] }
  (s.wearEvent 0x03 0 c cause 0x3F []).refreshUnserved

/-- Rotation stops: the mirror cell is idle or serves a port (R28, R345). -/
def stopRotation (b : Nat) (s : State) : State :=
  let s := s.modBlock b fun B => { B with moveTo := none, compared := [], disagreed := [], reports := [], heard := [] }
  s.wr (F.BK_PINMUX.MLISTEN b) (if (s.mirrorServes b).isSome then 8 else 0xF)

/-- A HARD cause of a cell (Table 13-1). -/
def hardCause (cause : Nat) : Bool := cause == 1 || cause == 2 || cause == 3

/-- The mirror cell begins to take over the port of a failed cell (R349, R351): it listens for a HARD cause. `bad`: the
status mirror word of its counts is uncorrectable. -/
def beginTakeover (n c : Nat) (hard bad : Bool) (s : State) : State :=
  let b := n / 8
  let s := s.counted c
  let s := (s.stopRotation b).modBlock b fun B =>
    { B with takeover := some ⟨c % 9, hard, if bad then 0 else s.tec c, if bad then 0 else s.rec' c, s.rd (F.CL_STATUS.RECOV c)⟩
             unserved := B.unserved.filter (· != n) }
  let s := s.resetCell (mirror b)
  (onlyIf hard (·.wr (F.BK_PINMUX.MLISTEN b) (n % 8)) s).refreshUnserved

/-- The block drives the isolation flag on the pin of a port in the present clk (R350). -/
def isolationFlag (s : State) (n : Nat) : Bool := match (s.port n).isolation with | some k => s.clk < k | none => false

/-- A cell is isolated (R350): its open store and fetch end, and a packet that it has begun to push is rewound with cause
0x4 (R224). `idle`: the port's idle detector shows the bus idle; otherwise the block sends 6 bit times of dominant. -/
def isolateCell (c n : Nat) (idle : Bool) (s : State) : State :=
  let C := s.cell c
  let s := match C.store with
    | some o => (s.setS0 n o.buf (if o.shadow then 12 else 17) (if o.shadow then 12 else 17) 0).addLost n o.buf
    | none => s
  let s := match C.fetch with
    | some (.buffer d) => s.setS0 n d 17 17 0
    | _ => s
  let s := s.dropPush c
  let s := s.modCell c fun C =>
    { C with isolated := true, store := none, fetch := none, due := [], attempt := none, ready := none
             rxSof := none, flag := [] }
  onlyIf (s.portState n == 0 && !idle) (·.modPort n fun P => { P with isolation := some (s.clk + 1 + 6 * s.nbt n) }) s

/-- A failed cell whose port the mirror cell cannot take over is isolated, and its port is unserved (R349; log entry 97). -/
def loseCell (n c cause : Nat) (s : State) : State := (isolateCell c n true s).markUnserved n c cause

/-- A port's cell has failed: the mirror cell takes the port over, or the port is unserved (R349). -/
def replaceCell (n c cause : Nat) (bad : Bool) (s : State) : State :=
  if s.mirrorFree (n / 8) && s.portState n < 3 then s.beginTakeover n c (hardCause cause) bad else s.loseCell n c cause

/-- The mirror cell fails while it takes a port over, which is then unserved (R349, Table 13-10). A SPARE_TAKE that waits
for the switch ends with status 0x0A (log entry 97). -/
def dropTakeover (b : Nat) (s : State) : State :=
  match (s.block b).takeover with
  | none => s
  | some t =>
    let c := 9 * b + t.slot
    let s := (s.modBlock b fun B => { B with takeover := none }).endHandoff 0x58 c 0x0A []
    match s.servedPort c with
    | none => s
    | some n => (s.modPort n fun P => { P with routeNext := none }).loseCell n c (s.rd (causeField c))

/-- A HARD cause is found on a cell that a SOFT one has left working while its port is taken over (R344). -/
def hardenTakeover (n c : Nat) (s : State) : State :=
  match (s.block (n / 8)).takeover with
  | some t =>
    if t.slot = c % 9 then
      (s.modBlock (n / 8) fun B => { B with takeover := some { t with hard := true } }).wr (F.BK_PINMUX.MLISTEN (n / 8)) (n % 8)
    else s
  | none => s

/-- A cell fails (R343, R344, R366). -/
def failCell (c cause : Nat) (idle bad : Bool) (s : State) : State :=
  let again := s.cellFailed c
  if !newCause again (s.rd (causeField c)) cause then s
  else
    let b := c / 9
    let n? := s.servedPort c
    let free := c % 9 != 8 && (s.mirrorFree b || (again && ((s.block b).takeover.map (·.slot)) == some (c % 9)))
    let detail := if free then 8 else 0x3F
    let s := ((s.wr (failedField c) 1).wr (causeField c) cause).wearEvent 0x01 0 c cause detail []
    let s := onlyIf (cause != 5 && !s.inLedger 0 c) (enterLedger 0 c cause 0 detail) s
    let s := onlyIf (c % 9 == 8) (fun s => (onlyIf (s.mirrorServes b).isNone (stopRotation b) s).dropTakeover b) s
    match n? with
    | none => s
    | some n =>
      let s := onlyIf (hardCause cause) (isolateCell c n idle) s
      if c % 9 = 8 then s.markUnserved n c cause
      else if again then s.hardenTakeover n c
      else s.replaceCell n c cause bad

/-- A port wakes whose cell has failed: it is taken over, if the mirror cell is free then (R349). -/
def retryTakeover (n : Nat) (s : State) : State :=
  let c := s.servingCell n
  if s.cellFailed c && n ∈ (s.block (n / 8)).unserved && s.mirrorFree (n / 8) then
    s.beginTakeover n c (s.rd (causeField c) != 5 && s.rd (causeField c) != 4) false
  else s

/-- The routing of a port moves to the mirror cell, whose confinement state follows from the counts as they stood at the
decision (R351). -/
def switchToMirror (n : Nat) (s : State) : State :=
  let b := n / 8
  match (s.block b).takeover with
  | none => s
  | some t =>
    let c := 9 * b + t.slot
    let m := mirror b
    let off := 256 ≤ t.tec
    let s := (s.wr (slotField b (n % 8)) 8).wr (F.BK_PINMUX.MLISTEN b) 8
    let s := (s.wr (F.CL_ECNT.TEC m) t.tec).wr (F.CL_ECNT.REC m) t.recv
    let s := if off then ((s.wr (F.CL_STATUS.CONF m) 3).wr (F.CL_STATUS.RECOV m) (if t.recov = 0 then 3 else t.recov)).wr
        (F.CL_STATUS.SEQCNT m) 0
      else s.wr (F.CL_STATUS.CONF m) (if !t.hard then 0 else if 128 ≤ t.tec || 128 ≤ t.recv then 2 else 1)
    let s := s.wr (F.CL_SOLO.ACKRUN m) 0
    let s := onlyIf (96 ≤ t.tec || 96 ≤ t.recv) (fun s => (s.wr (F.CL_STATUS.EWARN m) 1).cellEvent m 0x01 []) s
    let s := s.modCell m fun C => { C with recDelay := (s.cell c).recDelay, countAt := (s.cell c).countAt, due := (s.cell c).due, store := (s.cell c).store }
    let s := (s.dropPush c).modCell c fun C => { C with attempt := none, ready := none, rxSof := none, fetch := none, due := [], store := none }
    let s := s.modBlock b fun B => { B with takeover := none }
    (s.wearEvent 0x02 0 c (s.rd (causeField c)) 8 []).endHandoff 0x58 c 0 [8]

/-- The routing of a port returns to its slot's cell, which starts as from a reset (R152, Table 13-3). -/
def switchBack (n slot : Nat) (s : State) : State :=
  let b := n / 8
  let c := 9 * b + slot
  let m := mirror b
  let s := ((s.wr (slotField b (n % 8)) slot).wr (failedField c) 0).wr (causeField c) 0
  let s := (s.resetCell c).wr (F.BK_PINMUX.MLISTEN b) 0xF
  let s := (s.modCell c fun C => { C with isolated := false, due := (s.cell m).due, store := (s.cell m).store }).resetCell m
  let s := s.modBlock b fun B => { B with returning := none, unserved := B.unserved.filter (· != n) }
  s.refreshUnserved.endHandoff 0x59 b 0 [slot]

/-- The routing change that waits for a frame boundary of the port (R27, R351, R354). -/
def switchRoute (n : Nat) (s : State) : State :=
  match (s.port n).routeNext with
  | none => s
  | some k =>
    let s := s.modPort n fun P => { P with routeNext := none }
    if k = 8 then s.switchToMirror n else s.switchBack n k

/-! ### Rotation check (R345 to R348) -/

/-- A port that the rotation includes (R345). -/
def rotates (s : State) (n : Nat) : Bool :=
  let c := s.servingCell n
  !s.asleep n && s.conf c != 3 && !s.searching c && !s.cellFailed c

/-! ### Rotation check: comparison (R346, R347) -/

/-- The distance of two timestamps. -/
def stampGap (a b : Nat) : Nat := min ((a + 2 ^ 36 - b) % 2 ^ 36) ((b + 2 ^ 36 - a) % 2 ^ 36)

/-- A rotation-check record (R347): the record of Table 7-3 with the type and the port index in word 0. -/
def rotationRecord (s : State) (n ty : Nat) (f : BusFrame) (stamp : Nat) (payload : Bool) : List Nat :=
  let l := (recordOf (s.compat n) false f.h1 f.h2 f.h3 stamp (if payload then f.payload else [])).map (·.toNat)
  match l with
  | w0 :: t => putBits (putBits w0 14 12 ty) 5 3 (n % 8) :: t
  | [] => []

/-- A frame in scope on port index `k` has been classed as type `ty` of Table 13-2; 0 is agree. Header, timestamp and
payload of a record are those of `f`. -/
def mirrorOutcome (b k ty : Nat) (f : BusFrame) (stamp : Nat) (s : State) : State :=
  let s := (s.bump (F.BK_MCHK.COMPARED b)).modBlock b fun B => { B with compared := joined k B.compared }
  if ty = 0 then s
  else
    let s := (s.bump (F.BK_MCHK.DISAG b)).modBlock b fun B =>
      { B with disagreed := joined k B.disagreed, dis := Sparse.put 0 B.dis k (Sparse.get 0 B.dis k + 1) }
    let q := 4 * mirror b
    let r := s.rotationRecord (8 * b + k) ty f stamp (ty == 1 || ty == 3)
    if s.queueOn q && r.length ≤ s.credit q then s.pushPacket q r else s.bump (F.BK_MCHK.RECDROP b)

/-- A frame of the mirror cell and a report of the serving cell are paired: agree, DIFF or TIME. -/
def comparePair (b k : Nat) (m r : BusFrame × Nat × Nat) (s : State) : State :=
  let equal := m.1.h1 == r.1.h1 && m.1.h2 == r.1.h2 && m.1.h3 == r.1.h3 && m.1.crc == r.1.crc
  s.mirrorOutcome b k (if !equal then 3 else if stampGap m.2.1 r.2.1 ≤ 2 then 0 else 4) m.1 m.2.1

/-- The frames of the mirror cell and the reports that no other has been paired with are MISSED and EXTRA, if they came in or
before clk `t`; the others are out of scope. -/
def settleCheck (b k t : Nat) (s : State) : State :=
  let B := s.block b
  let s := s.modBlock b fun B => { B with reports := [], heard := [] }
  each (B.reports.filter (·.2.2 ≤ t)) (fun r => mirrorOutcome b k 2 r.1 r.2.1)
    (each (B.heard.filter (·.2.2 ≤ t)) (fun m => mirrorOutcome b k 1 m.1 m.2.1) s)

/-- The mirror cell of a block listens to port index `k` for the rotation check, and a frame with this SOF timestamp is
in scope (log entry 99). -/
def inScope (s : State) (b k stamp : Nat) : Bool :=
  k < 8 && s.rd (F.BK_PINMUX.MLISTEN b) == k && (s.block b).takeover.isNone &&
    (stamp + 2 ^ 36 - (s.block b).since % 2 ^ 36) % 2 ^ 36 < 2 ^ 35

/-- The first element that `p` takes, and the others. -/
def takeFirst {α : Type} (p : α → Bool) : List α → Option (α × List α)
  | [] => none
  | x :: t => if p x then some (x, t) else (takeFirst p t).map fun r => (r.1, x :: r.2)

/-- The serving cell of port `n` reports a frame that has become valid for it (R346). -/
def reportFrame (n : Nat) (f : BusFrame) (stamp : Nat) (s : State) : State :=
  let b := n / 8
  if !s.inScope b (n % 8) stamp then s
  else
    match takeFirst (fun m => stampGap m.2.1 stamp ≤ 8) (s.block b).heard with
    | some (m, rest) => (s.modBlock b fun B => { B with heard := rest }).comparePair b (n % 8) m (f, stamp, s.clk)
    | none => s.modBlock b fun B => { B with reports := B.reports ++ [(f, stamp, s.clk)] }

/-- The mirror cell has decoded a frame of the port that it listens to (R346). -/
def hearFrame (n : Nat) (f : BusFrame) (stamp : Nat) (s : State) : State :=
  let b := n / 8
  if !s.inScope b (n % 8) stamp then s
  else
    match takeFirst (fun r => stampGap stamp r.2.1 ≤ 8) (s.block b).reports with
    | some (r, rest) => (s.modBlock b fun B => { B with reports := rest }).comparePair b (n % 8) (f, stamp, s.clk) r
    | none => s.modBlock b fun B => { B with heard := B.heard ++ [(f, stamp, s.clk)] }

/-- Every frame on port `n` has ended: the check of those still unpaired is made (R346, R347). -/
def settlePort (n : Nat) (s : State) : State :=
  if s.rd (F.BK_PINMUX.MLISTEN (n / 8)) = n % 8 then s.settleCheck (n / 8) (n % 8) s.clk else s

/-! ### Rotation check: evaluation (R345, R348) -/

/-- The block evaluates the check at the end of a listen tick (R348). A disagreement on the port listened to before that
came after the last evaluation counts for this one. -/
def evaluateRotation (b : Nat) (s : State) : State :=
  let k := s.rd (F.BK_PINMUX.MLISTEN b)
  if 8 ≤ k then s
  else
    let B := s.block b
    let recent := (B.disagreed :: B.recent).take 8
    let s := s.modBlock b fun B => { B with recent := recent, compared := [], disagreed := [] }
    let count (j : Nat) : Nat := Sparse.get 0 B.dis j
    if 3 ≤ recent.flatten.eraseDups.length then
      (s.modBlock b fun B => { B with dis := [], recent := [] }).failCell (mirror b) 4 true false
    else
      match (List.range 8).find? fun j => 0 < count j && s.rd (F.BK_MCFG.DISLIM b) ≤ count j with
      | some j => (s.modBlock b fun B => { B with dis := Sparse.put 0 B.dis j 0 }).failCell (s.servingCell (8 * b + j)) 4 true false
      | none =>
        if k ∈ B.compared ∧ k ∉ B.disagreed then s.modBlock b fun B => { B with dis := Sparse.put 0 B.dis k (count k - 1) }
        else s

/-- The mirror cell takes up the port of its rotation at a frame boundary of that port (R345). A frame on the port before is
valid for a receiver one bit before its end (R89): one that came less than a bit time ago has not ended, and is out of scope
(R346). -/
def moveMirror (n : Nat) (s : State) : State :=
  let b := n / 8
  if (s.block b).moveTo = some (n % 8) then
    let k := s.rd (F.BK_PINMUX.MLISTEN b)
    let s := if k < 8 then s.settleCheck b k (s.clk - s.nbt (8 * b + k)) else s
    (s.wr (F.BK_PINMUX.MLISTEN b) (n % 8)).modBlock b fun B =>
      { B with moveTo := none, lastPort := n % 8, reports := [], heard := [], since := s.now }
  else s

/-- The mirror cell moves on at a tick boundary (R28, R345). A move whose frame boundary has not come yet is taken up
again: the order goes on from the last port listened to (log entry 89). -/
def moveRotation (b : Nat) (s : State) : State :=
  if !s.blockOn b || !s.mirrorFree b then s
  else if !s.flag (F.BK_MCFG.ROTEN b) then s.stopRotation b
  else
    let last := (s.block b).lastPort
    match ((List.range 8).map fun i => (last + 1 + i) % 8).find? fun k => s.rotates (8 * b + k) with
    | none => s.stopRotation b
    | some k =>
      let s := s.modBlock b fun B => { B with moveTo := some k }
      if s.busIdle (8 * b + k) then s.moveMirror (8 * b + k) else s

/-! ### Tether lanes (R358) -/

/-- A physical lane carries a logical one. -/
def laneInUse (s : State) (l : Nat) : Bool := s.rd F.SP_LANE.PHYA == l || s.rd F.SP_LANE.PHYB == l

/-- The physical lane that is neither failed nor in use. -/
def spareLane (s : State) : Option Nat :=
  (List.range 3).find? fun p => !bitOf (s.rd F.SP_LANE.FAILED) p && !s.laneInUse p

/-- The logical lane on a failed physical lane moves to the spare one, or is lost: 0x3. -/
def moveLane (l : Nat) (s : State) : State :=
  let dest := s.spareLane.getD 3
  if s.rd F.SP_LANE.PHYA = l then s.wr F.SP_LANE.PHYA dest
  else if s.rd F.SP_LANE.PHYB = l then s.wr F.SP_LANE.PHYB dest else s

/-- A tether lane fails: its logical lane moves to the spare, or is lost. -/
def failLane (l cause : Nat) (s : State) : State :=
  if bitOf (s.rd F.SP_LANE.FAILED) l then s
  else
    let s := s.wr F.SP_LANE.FAILED (s.rd F.SP_LANE.FAILED + 2 ^ l)
    let detail := if s.laneInUse l then s.spareLane.getD 0x3F else 0x3F
    let s := (s.moveLane l).modWear fun w => { w with cause := Sparse.put 0 w.cause (0x2000 + l) cause }
    let s := onlyIf (cause != 5 && !s.inLedger 2 l) (enterLedger 2 l cause 0 detail) s
    s.wearEvent 0x0A 2 l cause detail []

/-! ### Scrubbing and rows (R359 to R361) -/

/-- The first spare row of a RAM that is not in use. -/
def spareRow (s : State) (r : RamId) : Option Nat :=
  (List.range (spareRows r)).find? fun k =>
    !(s.wear.retired ++ s.wear.copies).any fun x => x.ram == r && x.spare == k

/-- The spare row that takes the place of a row: the one of a copy in progress, else the first free one. -/
def rowTarget (s : State) (r : RamId) (row : Nat) : Option Nat :=
  match s.wear.copies.find? fun x => x.ram == r && x.row == row with
  | some x => some x.spare
  | none => s.spareRow r

/-- A row's address maps to a spare row (R361). The spare row that it had before is not free again, and stands as a row of
its own behind the RAM's rows; the spare rows in use are counted. -/
def useSpare (r : RamId) (row sp : Nat) (s : State) : State :=
  let again := s.wear.retired.any fun y => y.ram == r && y.row == row
  let s := s.modWear fun w =>
    { w with retired := w.retired.map (fun y => if y.ram == r && y.row == row then { y with row := ramRows r + y.spare } else y) ++
        [⟨r, row, sp⟩] }
  onlyIf (!again) (·.bump (usedField r)) s

/-- A row is retired: its copy into a free spare row begins, and event 0x08 is written (R360, R361). -/
def retireRow (r : RamId) (row : Nat) (s : State) : State :=
  if s.wear.copies.any fun x => x.ram == r && x.row == row then s
  else
    let k := ramKind r
    match s.spareRow r with
    | none => s.wearEvent 0x08 k.1 k.2 0 0x3F []
    | some sp =>
      (s.modWear fun w => { w with copies := w.copies ++ [⟨r, row, sp⟩] }).wearEvent 0x08 k.1 (sp * 2 ^ 7 + k.2) 0 sp []

/-- A reader has corrected a word (R360): the row's count, and the row's retirement from RETLIM on. -/
def correctedWord (r : RamId) (addr : Nat) (s : State) : State :=
  let row := addr / 64
  let n := min (Sparse.get 0 s.wear.rowCount (rowKey r row) + 1) 15
  let s := s.modWear fun w => { w with rowCount := Sparse.put 0 w.rowCount (rowKey r row) n }
  let s := match r with
    | .block b => ((s.bump (F.BK_ECC.CORR b)).wr (F.BK_ECC.LASTROW b) row)
    | _ => s
  onlyIf (s.rd F.SP_ROWCFG.RETLIM ≤ n) (retireRow r row) s

/-- The enabled per-cell queue whose area holds a block RAM word (R216). -/
def queueAtRam (s : State) (b w : Nat) : Option Nat :=
  ((List.range 36).map (36 * b + ·)).find? fun q =>
    q % 4 != 3 && s.queueOn q && 4 * s.rd (F.QCFG.BASE q) ≤ w && w < 4 * s.rd (F.QCFG.BASE q) + 512

/-- The queue whose RAM holds a word: which words of the central queue RAM are whose is open (log entry 4). -/
def queueHolding (s : State) (r : RamId) (w : Nat) : Option Nat :=
  match r with
  | .block b => s.queueAtRam b w
  | .queue => some ([0x200, 0x201, 0x202, 0x203, 0x210, 0x211, 0x212].getD (Config.freeValue s.free % 7) 0x200)
  | _ => none

/-- A word of a queue's RAM becomes uncorrectable (R230): which item stands in it, if any, is open (log entry 4). -/
def spoilQueue (q key : Nat) (s : State) : State :=
  let (v, s) := s.draw
  let i := v / 7 % queueCap q
  let spoil (l : List QWord) (i : Nat) : List QWord := l.take i ++ ((l.drop i).take 1).map (fun w => { w with bad := some key }) ++ l.drop (i + 1)
  s.modQueue q fun Q =>
    if i < Q.vis.length then { Q with vis := spoil Q.vis i } else { Q with opened := spoil Q.opened (i - Q.vis.length) }

/-- A reader has found an uncorrectable word (R360, R386): event 0x09 with the spare row that replaces its row, which is
retired. -/
def uncorrectableWord (r : RamId) (addr : Nat) (s : State) : State :=
  let k := ramKind r
  let sp := s.rowTarget r (addr / 64)
  let s := match r with
    | .block b => s.bump (F.BK_ECC.UNCORR b)
    | _ => s
  let key := badKey r addr
  let s := s.modWear fun w => { w with bad := if key ∈ w.bad then w.bad else w.bad ++ [key] }
  (s.wearEvent 0x09 k.1 (sp.getD 0 * 2 ^ 7 + k.2) 0 (sp.getD 0x3F) [addr % 2 ^ 18]).retireRow r (addr / 64)

/-- A scrub pass of the device ends (R359, R360): every 16th lowers every row count. -/
def endPass (s : State) : State :=
  let p := s.rd F.SP_SCRUB.PASSES + 1
  let s := (s.wr F.SP_SCRUB.PASSES p).wr F.SP_SCRUB.LASTMS ((s.clk - s.wear.scrubStart) / msClk)
  s.modWear fun w =>
    { w with scrubStart := s.clk
             rowCount := if p % 16 = 0 then w.rowCount.filterMap (fun e => if e.2 ≤ 1 then none else some (e.1, e.2 - 1))
               else w.rowCount }

/-- A row copy completes: the row's address maps to its spare row, and the retirement enters the ledger (R361, R366). -/
def mapRow (r : RamId) (row : Nat) (s : State) : State :=
  match s.wear.copies.find? fun x => x.ram == r && x.row == row with
  | none => s
  | some x =>
    let k := ramKind r
    let s := s.modWear fun w =>
      { w with copies := w.copies.filter (· != x), rowCount := Sparse.del w.rowCount (rowKey r row) }
    (s.useSpare r row x.spare).enterLedger k.1 (x.spare * 2 ^ 7 + k.2) 0 row x.spare

end State

/-! ### The commands -/

/-- CELL_FAULT (R343, R351): a checker or cell-local RAM fault of a cell that is not held in reset. -/
def execCellFault (c : CellId) (failure : CellFailure) (busIdle : Bool) (s : State) : Outcome :=
  ready s fun s =>
    if s.blockOn (c.val / 9) then
      s.failCell c (if failure.localRam then 3 else 1) busIdle (failure.localRam && failure.counts)
    else s

/-- A cell is held in reset: its block is off, or its port is in UMBRA or DARK (Table 12-1). -/
def State.heldInReset (s : State) (c : Nat) : Bool :=
  !s.blockOn (c / 9) || (match s.servedPort c with | some n => 3 ≤ s.portState n | none => false)

/-- HEARTBEAT_SAMPLE (Table 13-1): a heartbeat that has not toggled fails its cell; the mirror cell first, then the
lower slot (R349, R384). -/
def execHeartbeatSample (b : BlockId) (toggled busIdle : BitVec 9) (s : State) : Outcome :=
  ready s fun s =>
    each [8, 0, 1, 2, 3, 4, 5, 6, 7] (fun k s =>
      if toggled.getLsbD k || s.heldInReset (9 * b.val + k) then s else s.failCell (9 * b.val + k) 2 (busIdle.getLsbD k) false) s

/-- TAKEOVER_LOAD_DONE (R351, R354): the load of the mirror cell, or of a returning cell, completes; the routing
switches at the first frame boundary, which on an idle bus is at once (log entry 20). -/
def execTakeoverLoadDone (b : BlockId) (s : State) : Outcome :=
  ready s fun s =>
    match (s.block b).takeover, (s.block b).returning with
    | some t, _ =>
      match s.servedPort (9 * b.val + t.slot) with
      | none => s
      | some n =>
        let s := (s.modPort n fun P => { P with routeNext := some 8 }).stepHandoff 0x58 (9 * b.val + t.slot) 1
        if s.busIdle n then s.switchRoute n else s
    | none, some (slot, true) =>
      match s.mirrorServes b with
      | none => s
      | some k =>
        let n := 8 * b.val + k
        let s := (s.modPort n fun P => { P with routeNext := some slot }).stepHandoff 0x59 b 2
        if s.busIdle n then s.switchRoute n else s
    | _, _ => s

/-- MIRROR_FRAME_VALID (R346, R347): the mirror cell has sampled these bits, from SOF on, on the port that it listens to. -/
def execMirrorFrameValid (b : BlockId) (bits : List Bool) (last : Bool) (stamp : BitVec 36) (s : State) : Outcome :=
  ready s fun s =>
    let n := 8 * b.val + s.rd (F.BK_PINMUX.MLISTEN b)
    let e := s.ear n false
    let sc := Scan.run' e {} (bits ++ [last]) []
    if s.rd (F.BK_PINMUX.MLISTEN b) < 8 && sc.valid then s.hearFrame n (sc.frame e) stamp.toNat else s

/-- The lane that an engine runs in this MAP (R356): its own, or for the spare the one that it serves. -/
def State.engineLane (s : State) (e : Nat) : Option Nat :=
  let l := s.rd F.SP_ENGINE.SPARELANE
  if e = 8 then (if l = 0xF then none else some l)
  else if l = e || (s.lane e).dead then none else some e

/-- ENGINE_CHECKER_ERROR (R355): the newest knot in flight of the engine's lane makes no write, and the engine fails. The
spare that shadows a lane writes nothing. -/
def execEngineCheckerError (e : Fin 9) (s : State) : Outcome :=
  ready s fun s =>
    let s := s.bump F.SP_ENGINE.CHKERR
    let s := if s.phase ≠ 1 then s
      else
        let s := s.modGw fun g => { g with digestVoid := true }
        match s.engineLane e with
        | some l =>
          let newest := ((s.gateway.inflight.filter (·.lane == l)).getLast?)
          s.modGw fun g =>
            { g with inflight := g.inflight.filter (fun r => some r != newest)
                     lanes := Sparse.modify {} g.lanes l fun L => { L with dead := true } }
        | none => if e.val = 8 then s.modGw fun g => { g with shadow := none } else s
    s.failEngine e 1

/-- SELFTEST_COMPLETE (R354, R357, Table 14-7): of a SPARE_RETURN, or of a SELFTEST, whose fault signature is open when
the test fails (log entry 4). -/
def execSelftestComplete (u : UnitRef) (pass : Bool) (s : State) : Outcome :=
  ready s fun s =>
    let report (tag : Nat) (s : State) : State :=
      if pass then s.endHandoff 0x71 tag 0 [1, 0] else let (v, s) := s.draw; s.endHandoff 0x71 tag 0 [0, v % 2 ^ 18]
    match u with
    | .cell c =>
      match (s.block (c.val / 9)).returning with
      | some (slot, false) =>
        if slot = c.val % 9 then
          if pass then (s.modBlock (c.val / 9) fun B => { B with returning := some (slot, true) }).stepHandoff 0x59 (c.val / 9) 1
          else (s.modBlock (c.val / 9) fun B => { B with returning := none }).endHandoff 0x59 (c.val / 9) 9 []
        else report c s
      | _ => report c s
    | .engine e =>
      if (s.handoff 0x59 (128 + e.val)).isSome then
        if !pass then s.endHandoff 0x59 (128 + e.val) 9 []
        else if e.val = 8 then
          ((s.wr F.SP_ENGINE.FAILED (s.rd F.SP_ENGINE.FAILED % 256)).refreshNolane).endHandoff 0x59 136 0 [8]
        else (s.modWear fun w => { w with engineReturn := some e.val }).stepHandoff 0x59 (128 + e.val) 1
      else report (128 + e.val) s
    | .lane l =>
      if (s.handoff 0x59 (256 + l.val)).isSome then
        if !pass then s.endHandoff 0x59 (256 + l.val) 9 []
        else
          let f := s.rd F.SP_LANE.FAILED
          let s := onlyIf (bitOf f l) (·.wr F.SP_LANE.FAILED (f - 2 ^ l.val)) s
          let s := s.modWear fun w => { w with cause := Sparse.del w.cause (0x2000 + l.val) }
          let s := if s.rd F.SP_LANE.PHYA = 3 then s.wr F.SP_LANE.PHYA l
            else if s.rd F.SP_LANE.PHYB = 3 then s.wr F.SP_LANE.PHYB l else s
          s.endHandoff 0x59 (256 + l.val) 0 [l]
      else report (256 + l.val) s

/-- SCRUB_ACCESS (R359, R360): the scrubber reads one word; the last word of the last RAM ends the pass. A word of a
queue that it corrects counts for the queue (R230). -/
def execScrubAccess (ram : RamId) (addr : BitVec 18) (found : EccFinding) (s : State) : Outcome :=
  ready s fun s =>
    let a := addr.toNat % (64 * ramRows ram)
    let s := match found with
      | .clean => s
      | .corrected =>
        let s := match s.queueHolding ram a with | some q => s.bump (F.QMON.CORR q) | none => s
        s.correctedWord ram a
      | .uncorrectable =>
        let s := match s.queueHolding ram a with | some q => s.spoilQueue q (State.badKey ram a) | none => s
        s.uncorrectableWord ram a
    if ram = .patch ∧ a = 64 * ramRows ram - 1 then s.endPass else s

/-- ROW_COPY_DONE (R361, R366). -/
def execRowCopyDone (ram : RamId) (row : BitVec 12) (s : State) : Outcome := ready s (·.mapRow ram row.toNat)

/-- AGING_MEASUREMENT (R363): the margin codes of the nine slots, slot 0 in bits [3:0]. -/
def execAgingMeasurement (b : BlockId) (codes : BitVec 36) (s : State) : Outcome :=
  ready s fun s =>
    if !s.blockOn b then s
    else each (List.range 9) (fun k s =>
      let m := bitsOf codes.toNat (4 * k + 3) (4 * k)
      let c := 9 * b.val + k
      let s := s.wr (State.marginField c) m
      if m ≤ s.rd (F.BK_MCFG.AGELIM b) && !(s.block b).ageLow.contains k then
        (s.modBlock b fun B => { B with ageLow := B.ageLow ++ [k] }).wearEvent 0x0B 0 c 0 0x3F []
      else s) s

/-- LEASE_GRANT (R364, R365): a starved background requester gets its lease, which is counted. -/
def execLeaseGrant (u : LeaseUnit) (s : State) : Outcome :=
  ready s fun s => s.bump (match u with
    | .scrub => F.SP_LEASE.SCRUB
    | .wear => F.SP_LEASE.WEAR
    | .telem => F.SP_LEASE.TELEM
    | .aging => F.SP_LEASE.AGING)

/-- TETHER_LANE_FAILURE (R358, R385). -/
def execTetherLaneFailure (l : LaneErrors) (s : State) : Outcome :=
  ready s fun s => if s.flag F.SP_PAIR.EN then (s.bump F.SP_LANE.CODEERR l.errors.toNat).failLane l.lane 7 else s

/-- TETHER_FRAME_RESEND (R358, R385): the link layer sends an unacknowledged frame again; of it the registers show the code
and disparity errors that fail no lane. -/
def execTetherFrameResend (r : Resend) (s : State) : Outcome :=
  ready s fun s => onlyIf (s.flag F.SP_PAIR.EN) (·.bump F.SP_LANE.CODEERR r.errors.toNat) s

/-- OTP_PROGRAMMING_DONE (R368): the record stands at the lowest free OTP position. -/
def execOtpProgrammingDone (s : State) : Outcome :=
  ready s fun s =>
    match s.wear.programming with
    | none => s
    | some r =>
      match s.wear.live[r]? with
      | none => s.modWear fun w => { w with programming := none }
      | some x =>
        let pos := s.wear.otp.length
        let x := { x with otp := true }
        let s := s.modWear fun w => { w with programming := none, otp := w.otp ++ [some x], live := w.live.set r x }
        (s.wr F.SP_LEDGER.OTP (pos + 1)).endHandoff 0x5A r 0 [pos]

end Sys2Proof.Machine
end

