-- ==== Sys2Proof/Machine/Sleep.lean ====
section
/-! DEFINITION. Network sleep and wake (chapter 12): port power states, sleep rounds, wake sources, the wake log and
the keep-awake log, block power. -/

namespace Sys2Proof.Machine

/-- P<n>_LM[1:0] of a power state (Table 12-1). -/
def lmCode (st : Nat) : Nat := if st = 0 then 0 else if st = 1 then 1 else if st = 2 then 2 else if st = 3 then 1 else 3

/-- Clk in a microsecond. -/
def usClk : Nat := 200

namespace State

/-! ### Events and logs (R338, R339, R342) -/

/-- Writes an event of class 0x0B (Table 12-10). -/
def sleepEvent (n group code : Nat) (rest : List Nat) (s : State) : State :=
  s.post 0x0B code n (pack [(n, 11), (group, 5)] :: rest)

/-- Words 4 of events 0x01 to 0x03: coordinator, ROUND and COORD of the port's round. -/
def roundWord (s : State) (n : Nat) : Nat :=
  pack [(((s.port n).round.map (·.coord)).getD 0x3FF, 8), (s.rd (F.PW_PSTAT.ROUND n), 2), (s.rd (F.PW_PSTAT.COORD n), 1)]

/-- The number that TK_TICKNO reads in the clk after this one (R339). -/
def tickAfter (s : State) : Nat := s.tickNo + b2n s.boundaryHere

/-- A keep-awake record (Table 12-7). -/
def keepAwake (n group cause origin src time tick : Nat) (s : State) : State :=
  let e := s.rd F.PW_KALOG.NEXT
  let ws := [pack [(n, 11), (group, 5), (cause, 3)], pack [(origin, 8), (src, 4)]] ++ words 2 tick ++ words 2 time ++ [0, 0]
  ({ s with kaLog := Sparse.ins s.kaLog e ws }.wr F.PW_KALOG.NEXT (e + 1)).bump F.PW_KALOG.TOTAL

/-- A wake log entry (Table 12-8). -/
def wakeEntry (n group src orig filt origin prev tick time : Nat) : List Nat :=
  [pack [(n, 11), (group, 5), (src, 1)], pack [(orig, 14), (filt, 10), (origin, 0)]] ++ words 2 tick ++ words 2 time ++ [prev, 0]

/-- The body of event 0x05 (Table 12-10); `e`: its wake log entry. -/
def wakeBody (n group src orig filt origin e : Nat) : List Nat :=
  [pack [(n, 11), (group, 5)], pack [(src, 14), (orig, 10), (filt, 6)], origin, e]

/-- A wake log entry and event 0x05 (R339) of a wake that is decided at device time `t`. `group`: 0x3F for a whole
port. -/
def logWake (n group src orig filt origin prev tick t : Nat) (s : State) : State :=
  let e := s.rd F.PW_WLOG.NEXT
  let ws := wakeEntry n group src orig filt origin prev tick t
  let s := ({ s with wakeLog := Sparse.ins s.wakeLog e ws }.wr F.PW_WLOG.NEXT (e + 1)).bump F.PW_WLOG.TOTAL
  s.postAt t 0x0B 0x05 n (wakeBody n group src orig filt origin e)

/-- The wake that this clk has logged takes another source (R328). -/
def relogWake (n src orig filt origin tick : Nat) (w : Waking) (s : State) : State :=
  let ws := wakeEntry n 0x3F src orig filt origin w.prev tick s.now
  let body := wakeBody n 0x3F src orig filt origin w.entry
  let posted := s.merger.posted.map fun r =>
    if r.cls = 0x0B ∧ r.code = 0x05 ∧ r.unit = n ∧ r.time = s.now then { r with body := body.map (· % 2 ^ 18) } else r
  { s with wakeLog := Sparse.ins s.wakeLog w.entry ws, merger := { s.merger with posted := posted } }

/-! ### Network frames of the device (R329, R330) -/

/-- A network frame goes to the network slot of a port, or waits for it. A standby sends none (R372), nor does a
compatibility port (R120). -/
def sendNet (n : Nat) (payload : List Nat) (s : State) : State :=
  if s.isStandby || s.compat n then s
  else
    let f : NetFrame := ⟨s.rd F.PW_NPRI.NPRI, payload.map wordOf⟩
    s.modPort n fun P => if P.net.isNone then { P with net := some f } else { P with netWait := P.netWait ++ [f] }

def funcOf (f : NetFrame) : Nat := bitsOf (f.payload.headD 0).toNat 17 12

/-- The network slot takes its next frame. -/
def nextNet (n : Nat) (s : State) : State :=
  s.modPort n fun P => { P with net := P.netWait.head?, netWait := P.netWait.drop 1 }

/-- The serving cell gives up the frame of the network slot: fetched or ready, it is dropped, and an attempt on the bus is
its last. -/
def forgetNet (n : Nat) (s : State) : State :=
  s.modCell (s.servingCell n) fun C =>
    { C with
      ready := C.ready.filter (·.src != .network)
      fetch := if C.fetch = some .network then none else C.fetch
      attempt := C.attempt.map fun a => if a.frame.src = .network then { a with orphan := true } else a }

/-- Frames of the round are dropped; one that is on the bus is not sent again (R334). -/
def dropRoundFrames (n : Nat) (s : State) : State :=
  let keep (f : NetFrame) : Bool := funcOf f == 4
  let P := s.port n
  let wait := P.netWait.filter keep
  match P.net with
  | some f =>
    if keep f then s.modPort n fun P => { P with netWait := wait }
    else (s.forgetNet n).modPort n fun P => { P with net := wait.head?, netWait := wait.drop 1 }
  | none => s.modPort n fun P => { P with netWait := wait }

def sendWakeFrame (n group src : Nat) (s : State) : State := s.sendNet n [pack [(4, 12), (group, 0)], src]

/-- P<n>_WAKE is driven low from the clk after clk `k` on (R323). -/
def driveWake (n k : Nat) (s : State) : State := s.modPort n fun P => { P with wakeDrive := some (k + 1) }

/-! ### Power states (R316, R317, R321) -/

def setPortState (n st : Nat) (s : State) : State :=
  (s.wr (F.PW_PSTAT.STATE n) st).modPort n fun P => { P with lm := lmCode st }

/-- The nominal timing of a port as one number, for the umbra decoder's copy (R319). -/
def nbtPacked (s : State) (n : Nat) : Nat :=
  let c := home n
  pack [(s.rd (F.CL_NBT.BRP c), 24), (s.rd (F.CL_NBT.TSEG1 c), 14), (s.rd (F.CL_NBT.TSEG2 c), 7), (s.rd (F.CL_NBT.SJW c), 0)]

/-- The busy time of the bus up to now goes into the load of the tick (R453). -/
def closeBusy (n : Nat) (s : State) : State :=
  s.modPort n fun P => match P.busySince with
    | some t => { P with busySince := none, busyAcc := P.busyAcc + (s.clk - t) }
    | none => P

/-- The WAKE frame that a wake with source `src` owes (R335), and the wake line (R323). -/
def wakeActs (n src k : Nat) (s : State) : State :=
  let act := s.rd (F.PW_PCFG.WACT n)
  let s := s.modPort n fun P => { P with sendWake := if bitOf act 1 && !s.compat n then some src else none }
  if bitOf act 0 && src != 1 then s.driveWake n k
  else s.modPort n fun P => if P.wakeDrive = some (k + 1) then { P with wakeDrive := none } else P

/-- A rate search ends where the cell of a port is no longer in listen mode (Table 5-6). -/
def endListening (n : Nat) (s : State) : State := if s.listens n then s else s.rateStop (s.servingCell n)

/-- A wake of an asleep port is decided in clk `k`, at device time `t` (R321, R323, R335, R339); the tether carries it
(R372). `tick` is the tick number of its entry. While a port wakes, a further wake is ignored, but for one of a lower
source in the clk of the decision, which takes its place (R328). -/
def wakePort (n src orig filt origin target tick k t : Nat) (s : State) : State :=
  let prev := s.portState n
  match (s.port n).waking with
  | some w =>
    if w.at' = k && src < w.src then
      let s := (s.relogWake n src orig filt origin tick w).wr (F.PW_PSTAT.LASTSRC n) src
      let s := onlyIf (w.src == 8) (fun s => s.wr (F.PW_PCNT.REWAKE n) (s.rd (F.PW_PCNT.REWAKE n) - 1)) s
      ((s.setPortState n target).modPort n fun P => { P with waking := some { w with src := src } }).wakeActs n src k
    else s
  | none =>
  if prev < 2 then s
  else
    let b := n / 8
    let c := s.servingCell n
    let entry := s.rd F.PW_WLOG.NEXT
    let s := s.logWake n 0x3F src orig filt origin prev tick t
    let s := (s.setPortState n target).wr (F.PW_PSTAT.LASTSRC n) src
    let s := onlyIf (src == 8) (·.bump (F.PW_PCNT.REWAKE n)) s
    let s := s.modPort n fun P => { P with waking := some ⟨src, k + 1, k, entry, prev⟩, powerNext := none }
    let s := s.wakeActs n src k
    let off := !bitOf (s.rd F.SYS_PWRDOM.ON) b
    let s := onlyIf off (fun s => (s.wr F.SYS_PWRDOM.ON (s.rd F.SYS_PWRDOM.ON + 2 ^ b)).wr F.SYS_PWRDOM.PWRUP
      (s.rd F.SYS_PWRDOM.PWRUP + 2 ^ b)) s
    let s := onlyIf (bitOf (s.rd F.SYS_PWRDOM.PWRUP) b) (·.wr (F.PW_PSTAT.PWRUP n) 1) s
    let s := if 3 ≤ prev then s.resetCell c else (s.integrate c).endListening n
    let s := onlyIf (s.rd F.SP_PSTAT.ROLE == 1) (sendHealth [n] false) s
    s.retryTakeover n

/-- The state that a wake takes a port to. -/
def wakeState (s : State) (n : Nat) : Nat := s.rd (F.PW_PCFG.WAKEST n)

/-- The round of a port is over. -/
def closeRound (n : Nat) (s : State) : State :=
  (s.modPort n fun P => { P with round := none }).wr (F.PW_PSTAT.RSTATE n) 0

/-- A wake source that has been held at a sleep entry: the next clk decides a wake with SRC 0x8 (R334). `group`: whose bit
it clears; 0x3F wakes the port. -/
def holdWake (n group : Nat) (h : HeldWake) (s : State) : State :=
  s.modPort n fun P => { P with rewake := P.rewake <|> some ⟨s.clk + 1, s.now + 1, group, h⟩ }

/-- A port enters a sleep state at a frame boundary (R317, R319, R333, R337). A wake held since the commit is decided
in the next clk (R334). -/
def enterSleep (n st : Nat) (s : State) : State :=
  let c := s.servingCell n
  let P := s.port n
  let s := ((s.closeBusy n).rateAbort c).setPortState n st
  let s := s.wr (F.PW_GSLEEP.GSLEEP n) 0
  let s := s.modPort n fun P =>
    { P with powerNext := none, roundSleep := false, roundSlept := P.roundSleep, sleptAt := s.clk, sleptTick := true, net := none
             netWait := [], sendWake := none, umbra := if st = 3 then some (s.nbtPacked n, P.busProto) else none
             waking := none, pattern := {} }
  let s := s.modCell c fun C => { C with attempt := none, ready := none, rxSof := none, flag := [] }
  let s := if 3 ≤ st then
      (s.resetCell c).modPort n fun P => { P with pend := [], started := [] }
    else s
  if !P.roundSleep then s
  else
    let s := s.sleepEvent n 0x3F 0x04 (st :: words 2 s.tickNo)
    let s := s.closeRound n
    match P.held with
    | none => s
    | some h => (s.modPort n fun P => { P with held := none }).holdWake n 0x3F h

/-- The power change that waits for a frame boundary is made (R321). -/
def changePower (n : Nat) (s : State) : State :=
  match (s.port n).powerNext with
  | none => s
  | some st =>
    if 2 ≤ st then s.enterSleep n st
    else ((s.setPortState n st).modPort n fun P => { P with powerNext := none }).endListening n

/-! ### The sleep round (R331 to R334) -/

/-- The device sends a KEEP vote (R332). -/
def ownKeep (n : Nat) (s : State) : State := s.sendNet n [pack [(2, 12), (s.rd (F.PW_PSTAT.ROUND n), 6), (1, 5)]]

/-- A round aborts before its commit (R334), with a cause of Table 12-5; `src`: the source of the abort, which has the
filter `filt`. A device that takes part sends a KEEP vote for a wake or for HOLD (R332). -/
def abortRound (n cause origin src : Nat) (s : State) (filt : Nat := 0) : State :=
  match (s.port n).round with
  | none => s
  | some r =>
    if r.sdly.isSome then s
    else
      let group := s.rd (F.PW_PSTAT.RGROUP n)
      let mine := s.flag (F.PW_PSTAT.COORD n)
      let was : Aborted :=
        { number := s.rd (F.PW_PSTAT.ROUND n), group := group, cause := cause, src := ⟨src, filt, origin⟩, at' := s.clk, saved := r
          aborts := s.rd (F.PW_PCNT.ABORTS n), next := s.rd F.PW_KALOG.NEXT, total := s.rd F.PW_KALOG.TOTAL
          record := Sparse.get [] s.kaLog (s.rd F.PW_KALOG.NEXT) }
      let s := onlyIf (cause == 1) (fun s => s.keepAwake n group 2 origin src s.now s.tickAfter) s
      let s := (s.sleepEvent n group 0x02 [s.roundWord n, cause, origin]).bump (F.PW_PCNT.ABORTS n)
      let s := s.dropRoundFrames n
      let s := onlyIf (!mine && (cause == 1 || cause == 4)) (ownKeep n) s
      let s := s.modPort n fun P => { P with aborted := some was }
      s.closeRound n

/-- The commit of a round comes in the clk in which a wake source, or HOLD, has aborted the round: nothing of the abort
stays but the source, which is held (R334, R340). -/
def undoAbort (n : Nat) (a : Aborted) (s : State) : State :=
  let gone (r : EventRec) : Bool := r.cls == 0x0B && r.code == 2 && r.unit == n && r.time == s.now
  let keep (f : NetFrame) : Bool := funcOf f == 2 && bitOf (f.payload.headD 0).toNat 5
  let s := { s with merger := { s.merger with posted := s.merger.posted.filter (!gone ·) }
                    kaLog := Sparse.put [] s.kaLog a.next a.record }
  let s := ((s.wr (F.PW_PCNT.ABORTS n) a.aborts).wr F.PW_KALOG.NEXT a.next).wr F.PW_KALOG.TOTAL a.total
  s.modPort n fun P =>
    let wait := P.netWait.filter (!keep ·)
    let net := P.net.filter (!keep ·)
    { P with round := some a.saved, aborted := none, held := some a.src
             net := if net.isNone then wait.head? else net, netWait := if net.isNone then wait.drop 1 else wait }

/-- A wake source arises for a port whose round of the group it concerns is open or committed: it aborts the round, or
is held until sleep entry (R322, R334). -/
def wakeRound (n src filt origin : Nat) (s : State) : State :=
  match (s.port n).round with
  | none => s
  | some r =>
    if r.sdly.isSome then
      s.modPort n fun P => match P.held with
        | none => { P with held := some ⟨src, filt, origin⟩ }
        | some _ => P
    else s.abortRound n 1 origin src filt

/-- A whole-port round is open or committed. -/
def wholeRound (s : State) (n : Nat) : Bool := (s.port n).round.isSome && s.rd (F.PW_PSTAT.RGROUP n) == 0x3F

/-- The port is asleep, or a wake of it has been decided in this clk (R328). -/
def sleptNow (s : State) (n : Nat) : Bool :=
  s.asleep n || (match (s.port n).waking with | some w => w.at' == s.clk | none => false)

/-- The power state of a port as it stood before a wake that has been decided in this clk. -/
def stateBefore (s : State) (n : Nat) : Nat :=
  match (s.port n).waking with
  | some w => if w.at' = s.clk then w.prev else s.portState n
  | none => s.portState n

/-- A wake source arises for a port that is asleep or waking: it wakes the port to state `target`. In the clk of a round's
sleep entry it counts as held, and the wake is that of the next clk (R334, R340). -/
def arouse (n src filt origin target tick : Nat) (s : State) : State :=
  let P := s.port n
  if s.asleep n && P.roundSlept && P.sleptAt == s.clk then s.holdWake n 0x3F ⟨src, filt, origin⟩
  else s.wakePort n src src filt origin target tick s.clk s.now

/-- A wake source of Table 12-3 arises: an asleep port wakes, a whole-port round is aborted or its wake held. In QUIET
no source applies. -/
def wakeSource (n src filt origin : Nat) (s : State) : State :=
  if s.asleep n || (s.port n).waking.isSome then s.arouse n src filt origin (s.wakeState n) s.tickAfter
  else if s.portState n = 0 && s.wholeRound n then s.wakeRound n src filt origin
  else s

/-- A round opens (R331, R332): event 0x01. -/
def openRound (n group round coord : Nat) (mine : Bool) (window : Option Nat) (s : State) : State :=
  let s := (((s.wr (F.PW_PSTAT.ROUND n) round).wr (F.PW_PSTAT.RGROUP n) group).wr (F.PW_PSTAT.COORD n) (b2n mine)).wr
    (F.PW_PSTAT.RSTATE n) 1
  (s.wr (F.PW_PSTAT.AGREE n) 0).modPort n fun P => { P with round := some { coord := coord, window := window }, held := none }

/-- NET_SLEEP starts a round that the device coordinates (R331). -/
def startRound (n group : Nat) (s : State) : State :=
  let r := (s.rd (F.PW_PSTAT.ROUND n) + 1) % 64
  let s := s.openRound n group r (s.origin n) true none
  s.sendNet n [pack [(1, 12), (r, 6), (group, 0)], s.rd (F.PW_PCFG.VWIN n) * 2 ^ 10]

/-- The vote window closes (R331): a commit is queued, or the round aborts. -/
def closeWindow (n : Nat) (s : State) : State :=
  match (s.port n).round with
  | none => s
  | some r =>
    if r.agree.length < s.rd (F.PW_PCFG.MINVOTE n) then s.abortRound n 2 0x3FF 0
    else
      let s := s.modPort n fun P => { P with round := P.round.map fun r => { r with window := none } }
      s.sendNet n [pack [(3, 12), (s.rd (F.PW_PSTAT.ROUND n), 6), (s.rd (F.PW_PSTAT.RGROUP n), 0)],
        s.rd (F.PW_PCFG.SDLY n) * 2 ^ 10]

/-- The commit of the open round takes effect (R333). -/
def commitRound (n sdly : Nat) (s : State) : State :=
  let s := s.modPort n fun P => { P with round := P.round.map fun r => { r with sdly := some sdly, window := none } }
  let s := (s.wr (F.PW_PSTAT.RSTATE n) 2).bump (F.PW_PCNT.ROUNDS n)
  let s := onlyIf (s.rd F.SP_PSTAT.ROLE == 1) (sendHealth [n] false) s
  s.sleepEvent n (s.rd (F.PW_PSTAT.RGROUP n)) 0x03 [s.roundWord n, sdly, s.rd (F.PW_PSTAT.AGREE n)]

/-- A group bit clears, with the wake record of a decision at device time `t` (R334, R337). -/
def clearGroup (n g src orig filt origin t : Nat) (s : State) : State :=
  let v := s.rd (F.PW_GSLEEP.GSLEEP n)
  if bitOf v g then
    let s := s.wr (F.PW_GSLEEP.GSLEEP n) (v - 2 ^ g)
    s.logWake n g src orig filt origin (s.portState n) s.tickAfter t
  else s

/-- A wake of a group: in the clk of the sleep entry that has set its bit it counts as held (R340). -/
def wakeGroup (n g src filt origin : Nat) (s : State) : State :=
  if (s.port n).groupSlept = some (g, s.clk) then
    if bitOf (s.rd (F.PW_GSLEEP.GSLEEP n)) g then s.holdWake n g ⟨src, filt, origin⟩ else s
  else s.clearGroup n g src src filt origin s.now

/-- The wake that a sleep entry of the clk before has held is decided (R334): by the first command, or idle clk, of a later
clk that can show it (log entry 119). -/
def rewakePort (n : Nat) (s : State) : State :=
  match (s.port n).rewake with
  | none => s
  | some r =>
    if s.clk < r.at' then s
    else
      let h := r.held
      let s := s.modPort n fun P => { P with rewake := none }
      if r.group = 0x3F then s.wakePort n 8 h.src h.filt h.origin (s.wakeState n) s.tickAfter r.at' r.time
      else (s.clearGroup n r.group 8 h.src h.filt h.origin r.time).bump (F.PW_PCNT.REWAKE n)

def rewakes (s : State) : State := each (s.ports.map (·.1)) rewakePort s

/-- Sleep entry of the committed round (R333, R334). -/
def roundEntry (n : Nat) (s : State) : State :=
  let g := s.rd (F.PW_PSTAT.RGROUP n)
  if g = 0x3F then
    let s := s.modPort n fun P => { P with powerNext := some (s.rd (F.PW_PCFG.SLEEPST n)), roundSleep := true }
    if s.busIdle n then s.changePower n else s
  else
    let held := (s.port n).held
    let v := s.rd (F.PW_GSLEEP.GSLEEP n)
    let s := s.wr (F.PW_GSLEEP.GSLEEP n) (if bitOf v g then v else v + 2 ^ g)
    let s := (s.sleepEvent n g 0x04 (0 :: words 2 s.tickNo)).closeRound n
    let s := s.modPort n fun P => { P with held := none, groupSlept := some (g, s.clk) }
    match held with
    | none => s
    | some h => s.holdWake n g h

/-! ### Network frames received (R329, R332, R333, R337) -/

/-- A group that a frame may name. -/
def groupOk (g : Nat) : Bool := g < 32 || g == 0x3F

/-- The payload of a sleep or wake frame is well-formed (R329). -/
def netOk (p : List Nat) : Bool :=
  let w0 := p.headD 0
  let w1 := (p.drop 1).headD 0
  match bitsOf w0 17 12 with
  | 1 => p.length == 2 && groupOk (bitsOf w0 5 0) && bitsOf w1 9 0 == 0 && bitsOf w1 17 10 != 0
  | 2 => p.length == 1 && bitsOf w0 4 0 == 0
  | 3 => p.length == 2 && groupOk (bitsOf w0 5 0) && bitsOf w1 9 0 == 0 && bitsOf w1 17 10 != 0
  | 4 => p.length == 2 && groupOk (bitsOf w0 5 0) && bitsOf w0 11 6 == 0 && bitsOf w1 17 4 == 0
  | _ => false

/-- An origin is a member of a group (R337). -/
def member (s : State) (n g o : Nat) : Bool :=
  s.flag (F.PW_GRP.GEN n g) && ((o ^^^ s.rd (F.PW_GRP.GVAL n g)) &&& s.rd (F.PW_GRP.GMASK n g)) == 0

def stray (n : Nat) (s : State) : State := s.bump (F.PW_PCNT.STRAY n)

/-- A SLEEP_PROPOSE of another node (R332). -/
def propose (n org w0 : Nat) (s : State) : State :=
  if (s.port n).round.isSome then s.stray n
  else if s.portState n != 0 || bitsOf w0 5 0 != 0x3F || s.isStandby then s
  else
    let s := s.openRound n 0x3F (bitsOf w0 11 6) org false none
    let s := s.sleepEvent n 0x3F 0x01 [s.roundWord n]
    if s.flag (F.PW_PCFG.HOLD n) then s.abortRound n 4 0x3FF 4
    else s.sendNet n [pack [(2, 12), (s.rd (F.PW_PSTAT.ROUND n), 6)]]

/-- A SLEEP_VOTE (R331, R334, R338). `stamp`: its SOF timestamp. -/
def vote (n org w0 stamp : Nat) (s : State) : State :=
  match (s.port n).round with
  | none => s
  | some r =>
    let g := s.rd (F.PW_PSTAT.RGROUP n)
    if bitsOf w0 11 6 != s.rd (F.PW_PSTAT.ROUND n) || r.sdly.isSome || (g != 0x3F && !s.member n g org) then s
    else if bitOf w0 5 then (s.keepAwake n g 0 org 0 stamp s.tickAfter).abortRound n 0 org 0
    else if s.flag (F.PW_PSTAT.COORD n) && r.window.isSome && !r.agree.contains org then
      (s.bump (F.PW_PSTAT.AGREE n)).modPort n fun P => { P with round := P.round.map fun r => { r with agree := org :: r.agree } }
    else s

/-- A SLEEP_COMMIT from `org`, the device itself or another node, becomes valid (R333). -/
def commitFrame (n org w0 w1 : Nat) (s : State) : State :=
  let rd := bitsOf w0 11 6
  let s := match (s.port n).aborted with
    | some a =>
      if a.at' = s.clk && (a.cause = 1 || a.cause = 4) && a.number = rd && a.group = bitsOf w0 5 0 && a.saved.coord = org
      then s.undoAbort n a else s
    | none => s
  let g := bitsOf w0 5 0
  let open' : Bool := match (s.port n).round with
    | some r => r.sdly.isNone && rd == s.rd (F.PW_PSTAT.ROUND n) && g == s.rd (F.PW_PSTAT.RGROUP n) && r.coord == org
    | none => false
  if open' then s.commitRound n (bitsOf w1 17 10)
  else
    let s := s.stray n
    match (s.port n).aborted with
    | some a =>
      if a.number = rd && a.group = g && a.saved.coord = org && s.portState n = 0 then
        let s := s.modPort n fun P => { P with aborted := none }
        let s := onlyIf (bitOf (s.rd (F.PW_PCFG.WACT n)) 0) (fun s => s.driveWake n s.clk) s
        onlyIf (bitOf (s.rd (F.PW_PCFG.WACT n)) 1) (sendWakeFrame n 0x3F a.src.src) s
      else s
    | none => s

/-- A WAKE frame of the device or of another node clears the bits of its groups (R337). -/
def wakeGroups (n org g : Nat) (s : State) : State :=
  if g = 0x3F then each (List.range 32) (fun i => wakeGroup n i 3 8 org) s else s.wakeGroup n g 3 8 org

/-- A WAKE frame of another node (R334, R337). -/
def wakeFrame (n org w0 : Nat) (s : State) : State :=
  let g := bitsOf w0 5 0
  let s := s.wakeGroups n org g
  let rg := s.rd (F.PW_PSTAT.RGROUP n)
  if s.portState n = 0 && (s.port n).round.isSome && (g = 0x3F || g = rg) then s.wakeRound n 3 8 org else s

/-- A network frame with PRI other than 0 becomes valid for a receiver on an ACTIVE or QUIET native port. -/
def networkFrame (n org : Nat) (p : List Nat) (stamp : Nat) (s : State) : State :=
  let w0 := p.headD 0
  let w1 := (p.drop 1).headD 0
  let fn := bitsOf w0 17 12
  if fn = 0 || 4 < fn then s
  else if !netOk p then s.stray n
  else if fn = 1 then s.propose n org w0
  else if fn = 2 then s.vote n org w0 stamp
  else if fn = 3 then s.commitFrame n org w0 w1
  else s.wakeFrame n org w0

/-- A frame with this origin becomes valid on an ACTIVE or QUIET native port: its groups wake (R337). -/
def memberTraffic (n org : Nat) (s : State) : State :=
  if s.rd (F.PW_GSLEEP.GSLEEP n) = 0 then s
  else each (List.range 32) (fun g s => if s.member n g org then s.wakeGroup n g 3 0xF org else s) s

/-- A network frame of the device that started at `sof` has become valid (R330, R331, R333, R337, R338); `own`: the network slot
still holds it. -/
def networkSent (n sof : Nat) (f : NetFrame) (own : Bool) (s : State) : State :=
    let s := onlyIf own (nextNet n) s
    let mine := s.flag (F.PW_PSTAT.COORD n) && (s.port n).round.isSome
    let w0 := (f.payload.headD 0).toNat
    let current := bitsOf w0 11 6 == s.rd (F.PW_PSTAT.ROUND n)
    if funcOf f = 1 && mine && current then
      let vw := bitsOf ((f.payload.drop 1).headD 0).toNat 17 10
      let s := s.modPort n fun P => { P with round := P.round.map fun r => { r with window := some vw } }
      s.sleepEvent n (s.rd (F.PW_PSTAT.RGROUP n)) 0x01 [s.roundWord n]
    else if funcOf f = 3 then s.commitFrame n (s.origin n) w0 ((f.payload.drop 1).headD 0).toNat
    else if funcOf f = 2 && bitOf w0 5 then s.keepAwake n 0x3F 1 (s.origin n) 0 sof s.tickAfter
    else if funcOf f = 4 then s.wakeGroups n (s.origin n) (bitsOf w0 5 0)
    else s

/-- One boundary passes for the round of a port: the vote window and SDLY count down (R331, R333). -/
def roundBoundary (n : Nat) (s : State) : State :=
  s.modPort n fun P => { P with round := P.round.map fun r =>
    { r with window := r.window.map (· - 1), sdly := r.sdly.map (· - 1) } }

/-- A PORT_POWER state goes live for a port (R320, R340). `tick`: the tick that the boundary opens. -/
def powerLive (n st tick : Nat) (s : State) : State :=
  let committed : Bool := match (s.port n).round with | some r => r.sdly.isSome | none => false
  let s := if committed && s.rd (F.PW_PSTAT.RGROUP n) == 0x3F then (s.closeRound n).modPort n fun P => { P with held := none }
    else s.abortRound n 3 0x3FF 4
  let s := s.modPort n fun P => { P with roundSleep := false }
  if s.asleep n then
    if st < 2 then s.arouse n 4 0 0x3FF st tick
    else if st = s.portState n then s
    else s.enterSleep n st
  else if st = s.portState n then s.modPort n fun P => { P with powerNext := none }
  else s.modPort n fun P => { P with powerNext := some st }

/-! ### The umbra decoder (R325, R326) -/

/-- Whether selective-wake filter `f` of port `n` matches an identifier and payload words (R326). -/
def wakeFilterHit (s : State) (n f id : Nat) (p : List Nat) : Bool :=
  let w (i : Nat) : Nat := (p.drop i).headD 0
  let pay (i : Nat) : Nat := w (2 * i) + 2 ^ 18 * w (2 * i + 1)
  s.flag (F.PW_SWFID.EN n f) && ((id ^^^ s.rd (F.PW_SWFID.IDV n f)) &&& s.rd (F.PW_SWFIM.IDM n f)) == 0 &&
    ((pay 0 ^^^ s.rd (F.PW_SWFPV0.PV n f)) &&& s.rd (F.PW_SWFPM0.PM n f)) == 0 &&
    ((pay 1 ^^^ s.rd (F.PW_SWFPV1.PV n f)) &&& s.rd (F.PW_SWFPM1.PM n f)) == 0

/-- The umbra decoder has sampled these bits, from SOF on (R325, R326): a frame that is valid for it may wake the port. It
decodes no frame at two rates and no FD frame. -/
def umbraDecode (n : Nat) (bits : List Bool) (s : State) : State :=
  match (s.port n).umbra with
  | none => s
  | some (_, mode) =>
    let compat := mode == 1
    let e : Ear := ⟨compat, false, false, false⟩
    let sc := Scan.run' e {} bits []
    if !sc.valid || sc.fast then s
    else
      let f := sc.frame e
      let p := f.payload
      let id := matchKey compat f.h1 f.h2
      let org := if compat then 0x3FF else hOrg f.h2
      match (if s.flag (F.PW_WCFG.SWEN n) then (List.range 8).find? fun i => s.wakeFilterHit n i id p else none) with
      | some i => s.wakeSource n 3 i org
      | none =>
        let wake := !compat && hKind f.h1 == 3 && hPri f.h1 != 0 && bitsOf (p.headD 0) 17 12 == 4 && netOk p &&
          bitsOf (p.headD 0) 5 0 == 0x3F
        if wake then s.wakeSource n 3 8 org else s

/-! ### Block power (R318, R180) -/

/-- The QIDs of the queue sets of a block. -/
def blockQids (b : Nat) : List Nat := (List.range 36).map (36 * b + ·) |>.filter (· % 4 != 3)

/-- A block's domain switches off: its RAM, with every row copy and rewrite in progress, and its queues are lost (R31,
R180, R216, R224). The words that follow an open TQ packet are discarded up to its END word, past the next power-up
(DESIGN CHOICE, log entry 111). -/
def powerOff (b : Nat) (s : State) : State :=
  let s := each (blockQids b) (fun q => emptyQueue q 4) s
  let s := { s with blockRam := s.blockRam.filter fun e => !(b * 32768 ≤ e.1 && e.1 < (b + 1) * 32768)
                    rewrites := s.rewrites.filter fun r => r.port / 8 != b }
  let s := s.modWear fun w =>
    { w with bad := w.bad.filter fun k => k / 262144 != 48 + b
             copies := w.copies.filter fun x => ramCode x.ram != 48 + b }
  let s := each (blockPorts b) (fun n s => s.modPort n fun P =>
    { P with pend := [], started := [], stored := [], listed := [], emitDue := [], emitHeld := [], relDue := [],
             xferOpen := none, susp := [], service := [] }) s
  let s := (s.stopRotation b).modBlock b fun B => { B with lastGrant := 8 }
  s.wr F.SYS_PWRDOM.ON (s.rd F.SYS_PWRDOM.ON - 2 ^ b)

/-- The transfers of EMIT in this tick of a port (R200, R204, R318), which HOLD drops (Table 2-4). -/
def emitWork (n : Nat) (s : State) : State :=
  let tx := s.txBuffers n
  let xs := tx.filter fun d => (s.desc n d).xfer
  let s := s.modPort n fun P => { P with emitDue := xs, relDue := tx.filter (fun d => (s.desc n d).relmode == 2) }
  if s.tick.holdPorts.contains n then each xs (fun d => dropEmit n d false) s else s

end State

/-! ### The commands -/

/-- A command of this chapter: the wakes that are decided before it come first. -/
def wakeful (s : State) (f : State → State) : Outcome := ready s fun s => f s.rewakes

/-- VOTE_WINDOW_CLOSE (R331): the VWIN-th boundary of a round that the device coordinates. -/
def execVoteWindowClose (p : PortId) (s : State) : Outcome :=
  wakeful s fun s =>
    match (s.port p).round with
    | some r => if r.window = some 0 && s.flag (F.PW_PSTAT.COORD p) then s.closeWindow p else s
    | none => s

/-- SLEEP_ENTRY (R333): the SDLY-th boundary after the commit. -/
def execSleepEntry (p : PortId) (s : State) : Outcome :=
  wakeful s fun s =>
    match (s.port p).round with
    | some r => if r.sdly = some 0 && !(s.port p).roundSleep then s.roundEntry p else s
    | none => s

/-- WAKE_LINE (R323): P<n>_WAKE has read low for WLFILT µs. -/
def execWakeLine (p : PortId) (s : State) : Outcome :=
  wakeful s fun s =>
    let ignored : Bool := match (s.port p).wakeOff with
      | some t => s.clk < t + s.rd (F.PW_WCFG.WLFILT p) * usClk
      | none => false
    let driven : Bool := match (s.port p).wakeDrive with | some t => t ≤ s.clk | none => false
    if !s.flag (F.PW_WCFG.WLEN p) || driven || ignored then s else s.wakeSource p 1 0 0x3FF

/-- The window of a pattern runs out before clk `k` (R324): the detector starts again in the clk after the window, and a
dominant level that it has then held for BPFILT is a first phase. `filt`: BPFILT, `win`: BPWIN, in clk; `since`: the
clk from which on the level has been held. -/
def BusPattern.expire (filt win since k : Nat) (p : BusPattern) : BusPattern :=
  if p.phases = 0 ∨ k ≤ p.first + win then p
  else
    let again := p.first + (k - p.first) / (win + 1) * (win + 1)
    if !p.level && since + filt ≤ again then { p with phases := 1, first := again } else { p with phases := 0 }

/-- RXD holds a level for `x.2` clk from clk `start` on (R324): the detector, and the clk in which its second dominant phase
completes, if it does. The window runs from the clk in which the first phase completes (log entry 100). -/
def BusPattern.feed (filt win start : Nat) (x : Bool × Nat) (p : BusPattern) : BusPattern × Option Nat :=
  let before := if x.1 = p.level then p.run else 0
  let p := { p with level := x.1, run := before + x.2 }
  let since := start - before
  let t := since + filt
  let k := start + x.2
  if filt ≤ before || before + x.2 < filt then (p.expire filt win since k, none)
  else
    let p := if p.phases ≠ 0 ∧ p.first + win < t then { p with phases := 0 } else p
    if x.1 ≠ (p.phases == 1) then (p.expire filt win since k, none)
    else if p.phases = 2 then ({ p with phases := 0 }, some t)
    else (BusPattern.expire filt win since k
      { p with phases := p.phases + 1, first := if p.phases = 0 then t else p.first }, none)

/-- The detector watches RXD through these levels, up to the clk in which it decides a wake. -/
def BusPattern.watch (filt win : Nat) : Nat → List (Bool × Nat) → BusPattern → BusPattern × Nat × Bool
  | k, [], p => (p, k, false)
  | k, x :: t, p =>
    match p.feed filt win k x with
    | (p, some w) => (p, w, true)
    | (p, none) => BusPattern.watch filt win (k + x.2) t p

/-- BUS_PATTERN_WAKE (R324): the umbra decoder of a port in STANDBY or UMBRA watches RXD. -/
def execBusPatternWake (p : HeardLevels) (s : State) : Outcome :=
  let levels := p.levels.map fun x => (x.1, x.2.toNat)
  let p := p.port
  wakeful s fun s =>
    if !s.flag (F.PW_WCFG.BPEN p) || !(s.stateBefore p == 2 || s.stateBefore p == 3) then s.modPort p fun P => { P with pattern := {} }
    else
      let r := (s.port p).pattern.watch (s.rd (F.PW_WCFG.BPFILT p) * 20) (s.rd (F.PW_WCFG.BPWIN p) * State.msClk) s.clk levels
      let s := (s.modPort p fun P => { P with pattern := r.1 }).advanceClk r.2.1
      if r.2.2 then s.wakeSource p 2 0 0x3FF else s

/-- BUS_PATTERN_WINDOW_EXPIRY (R324): no second dominant phase has come within BPWIN ms, and the detector starts again. -/
def execBusPatternWindowExpiry (p : PortId) (s : State) : Outcome :=
  wakeful s fun s =>
    let d := (s.port p).pattern
    let win := s.rd (F.PW_WCFG.BPWIN p) * State.msClk
    if d.phases = 0 then s
    else (s.advanceClk (d.first + win + 1)).modPort p fun P =>
      { P with pattern := d.expire (s.rd (F.PW_WCFG.BPFILT p) * 20) win (s.clk - d.run) (d.first + win + 1) }

/-- UMBRA_FRAME (R325, R326). -/
def execUmbraFrame (p : PortId) (bits : List Bool) (s : State) : Outcome :=
  wakeful s fun s => if s.stateBefore p = 3 then s.umbraDecode p bits else s

/-- TICK_WAKE (R322): in the boundary clk in which TK_TICKNO becomes PW_WTICK. -/
def execTickWake (p : PortId) (s : State) : Outcome :=
  wakeful s fun s =>
    if s.flag (F.PW_WTIMER.TKEN p) && s.rd (F.PW_WTICK.TICKNO p) == s.tickNo && s.tick.time == s.tick.boundary && s.sleptNow p
    then s.wakeSource p 5 0 0x3FF else s

/-- TIMER_WAKE (R322): PW_WTIMER.MS after sleep entry. -/
def execTimerWake (p : PortId) (s : State) : Outcome :=
  wakeful s fun s =>
    if s.flag (F.PW_WTIMER.TMEN p) && s.sleptNow p then
      (s.advanceClk ((s.port p).sleptAt + s.rd (F.PW_WTIMER.MS p) * State.msClk)).wakeSource p 7 0 0x3FF
    else s

/-- PARTNER_WAKE (R322, R372): a standby follows the wakes of the active device whatever PWAKE holds. -/
def execPartnerWake (p : PortId) (s : State) : Outcome :=
  wakeful s fun s => if s.flag (F.PW_WCFG.PWAKE p) || s.isStandby then s.wakeSource p 6 0 0x3FF else s

/-- WAKE_PULSE_END (R323): WPULSE µs after the pin was driven low. -/
def execWakePulseEnd (p : PortId) (s : State) : Outcome :=
  wakeful s fun s =>
    match (s.port p).wakeDrive with
    | none => s
    | some t =>
      let s := s.advanceClk (t + s.rd (F.PW_WCFG.WPULSE p) * usClk)
      s.modPort p fun P => { P with wakeDrive := none, wakeOff := some s.clk }

/-- LMDLY_EXPIRY (R321): the cell of a waking port starts to integrate. -/
def execLmdlyExpiry (p : PortId) (s : State) : Outcome :=
  wakeful s fun s =>
    match (s.port p).waking with
    | none => s
    | some w =>
      if !s.blockOn (p.val / 8) then s
      else (s.advanceClk (w.base + s.rd (F.PW_PCFG.LMDLY p) * usClk)).modPort p fun P => { P with waking := none }

/-- BLOCK_POWER_OFF (R318): every port of the block is in UMBRA or DARK, and no crossbar transfer is in progress. -/
def execBlockPowerOff (b : BlockId) (s : State) : Outcome :=
  wakeful s fun s =>
    if s.blockOn b && (State.blockPorts b).all fun n => 3 ≤ s.portState n && (s.port n).xferOpen.isNone then s.powerOff b else s

/-- BLOCK_POWER_UP_COMPLETE (R318): no buffer of the block is pending (R180), the waking ports' cells leave reset, and the
block's transfers are made as usual. -/
def execBlockPowerUpComplete (b : BlockId) (s : State) : Outcome :=
  wakeful s fun s =>
    if !bitOf (s.rd F.SYS_PWRDOM.PWRUP) b then s
    else
      let s := s.wr F.SYS_PWRDOM.PWRUP (s.rd F.SYS_PWRDOM.PWRUP - 2 ^ b.val)
      each (State.blockPorts b) (fun n s =>
        let s := (s.wr (F.PW_PSTAT.PWRUP n) 0).modPort n fun P =>
          { P with waking := P.waking.map fun w => { w with base := max w.base s.clk }, pend := [], started := [] }
        let s := s.modCell (s.servingCell n) fun C => { C with ready := none, fetch := none }
        if s.phase ≤ 2 then s.emitWork n else s) s

/-- PW_HOLD_WRITE (R322, R332, R334): the host writes PW_PCFG.HOLD. Setting it wakes an asleep port, and stops a
whole-bus round or is held. A standby's own host does not write it (R374). -/
def State.writeHold (n : Nat) (hold : Bool) (s : State) : State :=
  let was := s.flag (F.PW_PCFG.HOLD n)
  let s := s.wr (F.PW_PCFG.HOLD n) (b2n hold)
  if was || !hold then s
  else if s.sleptNow n then s.arouse n 4 0 0x3FF (s.wakeState n) s.tickAfter
  else if s.portState n = 0 && s.wholeRound n then
    match (s.port n).round with
    | some r => if r.sdly.isSome then s.wakeRound n 4 0 0x3FF else s.abortRound n 4 0x3FF 4
    | none => s
  else s

end Sys2Proof.Machine
end

