-- ==== Sys2Proof/Machine/Bridge.lean ====
section
/-! DEFINITION. The splice bridge (chapter 11): transactions, remote commands, prefetch, locks, polls and the requests
that nodes send to the device. -/

namespace Sys2Proof.Machine

/-- How an outbound transaction closes (R296, R293): with a reply, its ARG and the words from word 2 on; with an error
reply and its ECODE; or by its timeout. -/
inductive TxnEnd
  | reply (arg : Nat) (data : List Nat)
  | error (ecode : Nat)
  | timeout

/-- A data word under a lane rule (R300); the same in both directions. -/
def laneWord (lane w : Nat) : Nat :=
  if lane = 0 then w
  else if lane = 1 then bitsOf w 15 0
  else pack [(bitsOf w 7 0, 8), (bitsOf w 15 8, 0)]

namespace State

/-! ### Windows, ports and entries -/

def winPort (s : State) (w : Nat) : Nat := s.rd (F.SB_WCFG.PORT w)
def winOrg (s : State) (w : Nat) : Nat := s.rd (F.SB_WCFG.ORG w)
def winLive (s : State) (w : Nat) : Bool := s.flag (F.SB_WCFG.EN w)

/-- The live settings of a window. -/
def winSet (s : State) (w : Nat) : WinSet :=
  ⟨s.winPort w, s.winOrg w, s.rd (F.SB_WBASE.BASE w), s.rd (F.SB_WCFG.LANE w), s.rd (F.SB_WRANGE.PRI w),
    s.flag (F.SB_WCFG.NOSE w)⟩

/-- A window prefetches (R301). -/
def prefetches (s : State) (w : Nat) : Bool :=
  s.winLive w && s.flag (F.SB_WCFG.NOSE w) && s.rd (F.SB_WCFG.PFDEPTH w) != 0 && !s.flag (F.SB_WSTAT.MISDECL w)

/-- Clk of SB_CTRL.TMO (R293). -/
def bridgeTmo (s : State) : Nat := s.rd F.SB_CTRL.TMO * 10 * usClk

/-- The lowest outbound entry that is neither open nor in quarantine (R292). -/
def freeTxn (s : State) : Option Nat := (List.range 64).find? fun e => (Sparse.find s.bridge.txns e).isNone

/-- Another node of the port is locked (R306). -/
def lockedOther (s : State) (n org : Nat) : Bool := match (s.port n).lock with | some (o, _) => o != org | none => false

def modTxns (f : Sparse Txn → Sparse Txn) (s : State) : State := s.modBridge fun b => { b with txns := f b.txns }
def modCmds (f : Sparse RemoteCmd → Sparse RemoteCmd) (s : State) : State := s.modBridge fun b => { b with cmds := f b.cmds }
def modInbound (f : Sparse Inbound → Sparse Inbound) (s : State) : State :=
  s.modBridge fun b => { b with inbound := f b.inbound }

/-- Writes an event of class 0x0A about a port, window and origin (Table 11-8). -/
def bridgeEvent (code n w org : Nat) (rest : List Nat) (s : State) : State :=
  s.post 0x0A code 0 ([pack [(n, 4), (w, 0)], org] ++ rest)

/-- A frame enters the outbound queue of a port (R293): one of a remote command before every prefetch and poll. -/
def enqueueOut (n : Nat) (cmd : Bool) (pri : Nat) (payload : List Nat) (s : State) : State :=
  let f := (cmd, pri, payload.map wordOf)
  s.modPort n fun P =>
    { P with outq := if cmd then P.outq.filter (·.1) ++ [f] ++ P.outq.filter (!·.1) else P.outq ++ [f] }

/-- The splice set of the window has not changed since what the transaction serves was asked for (R303, R312). -/
def setKept (s : State) : TxnKind → Bool
  | .command i => (Sparse.find s.bridge.cmds i).all (·.sameSet)
  | _ => true

/-- Opens entry `e` for a frame of window `w` under the settings `g` (R292, R294): its function, ARG below the address
bits, and the words after the address. The frame enters the outbound queue in clk `k`. -/
def openTxn (e : Nat) (kind : TxnKind) (w : Nat) (g : WinSet) (func ofs count seq : Nat) (arg : Nat) (data : List Nat)
    (s : State) (k : Nat := s.clk) : State :=
  let addressed := func == 1 || func == 2 || func == 5
  let addr := if addressed then (g.base + ofs) % 2 ^ 24 else 0
  let payload := [pack [(func, 12), (g.org, 0)], pack [(e, 12), (if addressed then bitsOf addr 23 18 else 0, 6), (arg, 0)]] ++
    (if addressed then [bitsOf addr 17 0] else []) ++ data
  let cmd : Bool := match kind with | .command _ => true | _ => false
  let s := s.modTxns fun m => Sparse.ins m e
    ⟨kind, w, g, func, addr, count, seq, k + s.bridgeTmo, false, s.tickNo, s.setKept kind⟩
  s.enqueueOut g.port cmd g.pri payload

/-! ### Prefetch (R301 to R303) -/

/-- A frame of the prefetch run in flight: `left` words of the run are still to arrive. -/
def prefetchFrame (w ofs left : Nat) (s : State) : State :=
  let n := min 30 left
  if s.lockedOther (s.winPort w) (s.winOrg w) then s.modWindow w fun W => { W with runOpen := none }
  else
    match s.freeTxn with
    | none => (s.bump F.SB_CNT1.PFSKIP).modWindow w fun W => { W with runOpen := none }
    | some e => s.openTxn e .prefetch w (s.winSet w) 1 ofs n 0 (n - 1) []

/-- fill() of R301. -/
def fill (w : Nat) (s : State) : State :=
  let W := s.window w
  let lo := s.rd (F.SB_WPF.PFBASE w) + W.buf.length
  let hi := min (s.rd (F.SB_WPF.PFBASE w) + s.rd (F.SB_WCFG.PFDEPTH w)) (s.rd (F.SB_WRANGE.SIZE w))
  if W.runOpen.isSome || hi ≤ lo || !s.prefetches w then s
  else (s.modWindow w fun W => { W with runOpen := some (hi - lo, false) }).prefetchFrame w lo (hi - lo)

/-- The buffer of a window is dropped and its run in flight marked stale. -/
def dropPrefetch (w : Nat) (s : State) : State :=
  s.modWindow w fun W => { W with buf := [], runOpen := W.runOpen.map fun r => (r.1, true) }

/-- Drops the buffers of every window that names a port and origin (R302). -/
def dropNode (n org : Nat) (s : State) : State :=
  each ((List.range 16).filter fun w => s.winPort w == n && s.winOrg w == org) dropPrefetch s

/-- A SPLICE_SET of a window goes live (R302, R303, R308, Table 11-6). -/
def spliceLive (w : Nat) (s : State) : State :=
  let s := ((s.dropPrefetch w).dropNode (s.winPort w) (s.winOrg w)).wr (F.SB_WSTAT.MISDECL w) 0
  let s := s.modTxns (·.map fun e => (e.1, if e.2.window = w then { e.2 with sameSet := false } else e.2))
  let s := s.modCmds (·.map fun e => (e.1, if e.2.window = w then { e.2 with sameSet := false } else e.2))
  s.modWindow w fun W => { W with lastPoll := none }

/-- The window is found misdeclared (R303): event 0x01 with the words logged. -/
def misdeclare (w n org logged : Nat) (setFlag : Bool) (s : State) : State :=
  (onlyIf setFlag (·.wr (F.SB_WSTAT.MISDECL w) 1) s).bridgeEvent 0x01 n w org [logged]

/-- Writes one entry of the discarded-prefetch log (R304, Table 11-4). -/
def logDiscarded (w n org addr v stamp : Nat) (s : State) : State :=
  let e := s.rd F.SB_DPLOG.NEXT
  let ws := [pack [(w, 14), (n, 7)], org, bitsOf addr 17 0, bitsOf addr 23 18, v] ++ words 2 stamp ++ [0]
  ((s.modBridge fun b => { b with dpLog := Sparse.ins b.dpLog e ws }).wr F.SB_DPLOG.NEXT (e + 1)).bump F.SB_DPLOG.TOTAL

/-- Writes one entry of the late-error log, and event 0x02 for the first of a tick (R304). -/
def logLate (t : Txn) (tag func ecode stamp : Nat) (s : State) : State :=
  let e := s.rd F.SB_LELOG.NEXT
  let ws := [pack [(func, 12), (t.set.port, 4), (t.window, 0)], t.set.org, pack [(t.seq, 6), (tag, 0)], ecode, bitsOf t.addr 17 0,
    bitsOf t.addr 23 18] ++ words 2 stamp
  let s := ((s.modBridge fun b => { b with leLog := Sparse.ins b.leLog e ws }).wr F.SB_LELOG.NEXT (e + 1)).bump F.SB_LELOG.TOTAL
  s.postOnce 0xA020000 0x0A 0x02 0 [pack [(t.set.port, 4), (t.window, 0)], t.set.org, e, ecode]

/-! ### Remote commands (R297 to R299) -/

/-- Sends the next frame of a remote command: READ up to 30 words, WRITE up to 29, LOCK, UNLOCK. -/
def sendFrame (i : Nat) (s : State) : State :=
  match Sparse.find s.bridge.cmds i, s.freeTxn with
  | some c, some e =>
    let ofs := c.ofs + c.done
    if c.opcode = 0x41 then
      let n := min 30 (c.count - c.done)
      s.openTxn e (.command i) c.window c.set 1 ofs n c.seq (n - 1) []
    else if c.opcode = 0x42 then
      let n := min 29 (c.count - c.done)
      let data := (c.wdata.take n).map fun x => laneWord c.set.lane x.toNat
      (s.openTxn e (.command i) c.window c.set 2 ofs n c.seq (n - 1) data).modCmds fun m =>
        Sparse.ins m i { c with wdata := c.wdata.drop n }
    else if c.opcode = 0x43 then
      s.openTxn e (.command i) c.window c.set 3 0 0 c.seq (c.wdata.headD 0).toNat []
    else s.openTxn e (.command i) c.window c.set 4 0 0 c.seq 0 []
  | _, _ => s

/-- A remote command ends: its status and results go to the command engine (R297, R390). -/
def endCommand (i status cause ecode : Nat) (extra : List Nat) (s : State) : State :=
  match Sparse.find s.bridge.cmds i with
  | none => s
  | some c =>
    let data := if c.opcode = 0x41 then c.data.map (·.toNat) else extra
    let rs := pack [(c.done, 12), (cause, 10), (ecode, 0)] :: (if status ≤ 2 then data else [])
    (s.modCmds (Sparse.del · i)).endHandoff c.opcode i status (if status = 0x0A then [] else rs)

/-- Handles a read of a window (R301): from the prefetch buffer, behind the run in flight, or by frames. A read that was
accepted under other settings of the window goes by frames under those (R312). `none`: no entry is free. -/
def handleRead (i : Nat) (s : State) : Option State :=
  match Sparse.find s.bridge.cmds i with
  | none => some s
  | some c =>
    let w := c.window
    let W := s.window w
    let base := s.rd (F.SB_WPF.PFBASE w)
    let upto := c.ofs + c.count
    let f := match W.runOpen with | some r => r.1 | none => 0
    let prefetched := s.prefetches w && c.sameSet
    if prefetched && base ≤ c.ofs && upto ≤ base + W.buf.length then
      let data := ((W.buf.drop (c.ofs - base)).take c.count).map (·.1)
      let s := s.modCmds fun m => Sparse.ins m i { c with done := c.count, data := data, waitsRun := false }
      let s := s.endCommand i 0 0 0 []
      let s := s.modWindow w fun W => { W with buf := W.buf.drop (upto - base) }
      some ((s.wr (F.SB_WPF.PFBASE w) upto).fill w)
    else if prefetched && base ≤ c.ofs && upto ≤ base + W.buf.length + f then
      some (s.modCmds fun m => Sparse.ins m i { c with waitsRun := true })
    else if s.freeTxn.isNone then none
    else
      let s := onlyIf prefetched (dropPrefetch w) s
      some ((s.modCmds fun m => Sparse.ins m i { c with waitsRun := false }).sendFrame i)

/-- A prefetch run closes: the reads that wait for it are handled again (R301). -/
def closeRun (w : Nat) (s : State) : State :=
  let s := s.modWindow w fun W => { W with runOpen := none }
  let waiting := (s.bridge.cmds.filter fun e => e.2.window == w && e.2.waitsRun).map (·.1)
  each waiting (fun i s => match s.handleRead i with | some t => t | none => s.endCommand i 0x0A 0 0 []) s

/-- The lock of a port toward an origin ends; one toward another origin stays (R306, R307). -/
def endLock (n org : Nat) (s : State) : State :=
  s.modPort n fun P => { P with lock := P.lock.filter fun l => l.1 != org }

/-- A frame of a remote command closes (R297 to R299, R303, R305 to R307, R311). -/
def closeCommand (i : Nat) (t : Txn) (o : TxnEnd) (s : State) : State :=
  match Sparse.find s.bridge.cmds i with
  | none => s
  | some c =>
    let s := onlyIf (t.func == 4) (endLock t.set.port t.set.org) s
    match o with
    | .reply arg data =>
      let s := s.modCmds fun m => Sparse.ins m i
        { c with done := c.done + t.count, closed := c.closed + 1, data := c.data ++ data.map fun x => wordOf (laneWord t.set.lane x) }
      let s := s.stepHandoff c.opcode i (c.closed + 1)
      let s := onlyIf (t.func == 1 && bitOf arg 11 && t.set.nose)
        (misdeclare t.window t.set.port t.set.org 0 t.sameSet) s
      if t.func = 1 then
        if c.done + t.count < c.count then s.sendFrame i
        else
          let s := s.endCommand i 0 0 0 []
          if t.sameSet && s.prefetches t.window then (s.wr (F.SB_WPF.PFBASE t.window) (c.ofs + c.count)).fill t.window else s
      else if t.func = 2 then
        if c.done + t.count < c.count then s.sendFrame i else s.endCommand i 0 0 0 []
      else if t.func = 3 then
        (onlyIf (!s.lockedOther t.set.port t.set.org) (·.modPort t.set.port fun P =>
          { P with lock := some (t.set.org, t.window, some (s.clk + arg * msClk)) }) s).endCommand i 0 0 0 [arg]
      else s.endCommand i 0 0 0 []
    | .error ec =>
      let s := onlyIf (t.func == 3) (endLock t.set.port t.set.org) s
      let cause := if ec = 7 then 3 else 1
      s.endCommand i (if 0 < c.closed then 0x02 else if ec = 7 then 0x12 else 0x10) cause ec []
    | .timeout =>
      let s := onlyIf (t.func == 3) (endLock t.set.port t.set.org) s
      s.endCommand i (if 0 < c.closed then 0x02 else 0x11) 2 0 []

/-- A prefetch frame closes (R301, R303). `stamp`: SOF timestamp of the reply. -/
def closePrefetch (t : Txn) (o : TxnEnd) (stamp : Nat) (s : State) : State :=
  let w := t.window
  match o with
  | .reply arg data =>
    let run := (s.window w).runOpen
    let left := (run.getD (t.count, false)).1 - t.count
    if bitOf arg 11 then
      let s := each ((List.range data.length).zip data) (fun x s =>
        s.logDiscarded w t.set.port t.set.org ((t.addr + x.1) % 2 ^ 24) x.2 stamp) s
      (((s.dropPrefetch w).misdeclare w t.set.port t.set.org data.length t.sameSet).closeRun w)
    else if (run.getD (0, true)).2 then s.closeRun w
    else
      let s := s.modWindow w fun W =>
        { W with buf := W.buf ++ data.map (fun x => (wordOf (laneWord t.set.lane x), 0)), runOpen := some (left, false) }
      if left = 0 || !s.prefetches w then s.closeRun w
      else
        let s := s.prefetchFrame w (s.rd (F.SB_WPF.PFBASE w) + (s.window w).buf.length) left
        if (s.window w).runOpen.isNone then s.closeRun w else s
  | _ => s.closeRun w

/-- Pushes a packet to the bulk queue bound 0x1, if one is bound and has credit for it (R220). -/
def pushBridge (body : List Nat) (tag : Nat) (s : State) : Option State :=
  match s.boundQueue 1 with
  | none => none
  | some q => if body.length + 1 ≤ s.room q then some (s.pushBulk q (pack [(tag, 12), (body.length, 0)] :: body)) else none

/-- A poll closes (R308). -/
def closePoll (t : Txn) (o : TxnEnd) (s : State) : State :=
  let w := t.window
  let (code, v, ec) := match o with
    | .reply _ data => (0, laneWord t.set.lane (data.headD 0), 0)
    | .error ec => (1, 0, ec)
    | .timeout => (2, 0, 0)
  let s := (s.wr (F.SB_WPOLLV.ERR w) (b2n (code == 1))).wr (F.SB_WPOLLV.TMO w) (b2n (code == 2))
  let s := if code = 0 then (s.wr (F.SB_WPOLLV.VALID w) 1).wr (F.SB_WPOLLV.VALUE w) v
    else if code = 1 then s.wr (F.SB_WPOLLV.ECODE w) ec else s
  let last := (s.window w).lastPoll
  let s := s.modWindow w fun W => { W with lastPoll := some (code, v), pollClosed := some s.clk }
  if last = some (code, v) then s
  else
    match s.pushBridge ([w, v, pack [(code, 8), (ec, 0)]] ++ words 2 t.tick) 1 with
    | some s => s
    | none => (s.bump F.SB_CNT1.OUTDROP).post 0x0A 0x04 0 (1 :: words 2 s.tickNo)

/-- A transaction closes: its entry becomes free, or enters quarantine at a timeout (R293, R296). -/
def closeTxn (e : Nat) (o : TxnEnd) (stamp : Nat) (s : State) : State :=
  match Sparse.find s.bridge.txns e with
  | none => s
  | some t =>
    let s := s.modTxns fun m => match o with
      | .timeout => Sparse.ins m e { t with quarantine := true, expires := s.clk + s.bridgeTmo }
      | _ => Sparse.del m e
    match t.kind with
    | .command i => s.closeCommand i t o
    | .prefetch => s.closePrefetch t o stamp
    | .poll => s.closePoll t o

/-! ### Acceptance of remote commands -/

/-- The status of Table 11-3 that refuses a remote command at acceptance, if any. No free entry refuses a read that the
prefetch buffer could serve, too (log entry 101). -/
def refuseRemote (s : State) (op w ofs count : Nat) : Option Nat :=
  let n := s.winPort w
  let org := s.winOrg w
  let greatest := if op = 0x41 then 60 else 58
  let range := (op == 0x41 || op == 0x42) && (count == 0 || greatest < count || s.rd (F.SB_WRANGE.SIZE w) < ofs + count)
  let noLock : Bool := match (s.port n).lock with | some (o, _) => o != org | none => true
  if !s.winLive w || range || (op == 0x43 && !s.flag (F.SB_WCFG.LOCKOK w)) || (op == 0x44 && noLock) then some 0x09
  else if s.portState n != 0 || s.testMode n != 0 || s.lockedOther n org || s.freeTxn.isNone then some 0x0A
  else none

/-- The bridge takes a remote command (R297). On a standby it sends no frame and waits for the results that the active
device forwards (R374). -/
def remote (op w ofs count : Nat) (wdata : List Word) (p : Packet) (s : State) : CmdOut :=
  if s.isStandby then
    match s.pair.results.find? fun r => r.1 == op && r.2.1 == p.seq.toNat with
    | some r => .done r.2.2.1 r.2.2.2 0 (s.modPair fun P => { P with results := P.results.filter (· != r) })
    | none => .handed (0x10000 + p.seq.toNat) s
  else
    match s.refuseRemote op w ofs count with
    | some st => .done st [] 0 s
    | none =>
      let i := s.bridge.nextCmd
      let n := s.winPort w
      let org := s.winOrg w
      let s0 := s
      let s := (s.modBridge fun b => { b with nextCmd := b.nextCmd + 1 }).modCmds fun m => Sparse.ins m i
        ⟨op, w, s.winSet w, ofs, count, p.seq.toNat, 0, 0, [], wdata, false, true⟩
      if op = 0x41 then
        let W := s.window w
        let base := s.rd (F.SB_WPF.PFBASE w)
        if s.prefetches w && base ≤ ofs && ofs + count ≤ base + W.buf.length then
          let data := ((W.buf.drop (ofs - base)).take count).map (·.1.toNat)
          match s.handleRead i with
          | some s => .done 0 (pack [(count, 12)] :: data) 0 s
          | none => .done 0x0A [] 0 s0
        else
          match s.handleRead i with
          | some s => .handed i s
          | none => .done 0x0A [] 0 s0
      else
        let s := s.dropNode n org
        let s := if op = 0x43 then s.modPort n fun P =>
            match P.lock with
            | some _ => P
            | none => { P with lock := some (org, w, none) }
          else s
        .handed i (s.sendFrame i)

/-! ### Requests from nodes (R309 to R311) -/

/-- Queues a reply of the device to a node request. -/
def answer (n pri func org tag arg : Nat) (data : List Nat) (s : State) : State :=
  let f := (pri, ([pack [(func, 12), (org, 0)], pack [(tag, 12), (arg, 0)]] ++ data).map wordOf)
  s.modPort n fun P => { P with inq := P.inq ++ [f] }

/-- An error reply to a node request. -/
def answerError (n pri func org tag arg ecode : Nat) (s : State) : State := s.answer n pri (func + 0x30) org tag arg [ecode]

/-- The device refuses a node request with ECODE 0x04 (R309). -/
def refuseRequest (n pri func org tag arg : Nat) (s : State) : State :=
  (s.bump F.SB_CNT0.IREFUSE).answerError n pri func org tag arg 4

/-- LEN and COUNT of a request fit Table 11-1. -/
def requestFits (func arg len : Nat) : Bool :=
  let count := bitsOf arg 5 0 + 1
  match func with
  | 1 => len == 3 && count ≤ 30
  | 2 => len == 3 + count && count ≤ 29
  | 5 => len == 3
  | _ => len == 2

/-- Settings that name the partner's origin on their port (R311). -/
def partnerSet (s : State) (g : WinSet) : Bool := g.org != 0x3FF && g.org == s.partnerOrigin g.port

/-- A transaction toward the partner is open, on whatever port (R311). -/
def towardPartner (s : State) : Bool :=
  s.bridge.txns.any (fun e => !e.2.quarantine && s.partnerSet e.2.set) || s.bridge.cmds.any fun e => s.partnerSet e.2.set

/-- A node request that was stored in clk `stored` is served (R309 to R311). -/
def nodeRequest (n pri org : Nat) (p : List Nat) (stored : Nat) (s : State) : State :=
  let w0 := p.headD 0
  let w1 := (p.drop 1).headD 0
  let func := bitsOf w0 17 12
  let tag := bitsOf w1 17 12
  let arg := bitsOf w1 11 0
  if s.flag F.SP_PAIR.EN && s.flag F.SP_PSTAT.SENIOR && org == s.partnerOrigin n && s.towardPartner then
    s.answerError n pri func org tag arg 7
  else if !s.flag (F.SB_PBUF.IEN n) then s.refuseRequest n pri func org tag arg
  else
    match (List.range 16).find? fun i => (Sparse.find s.bridge.inbound i).isNone with
    | none => s.refuseRequest n pri func org tag arg
    | some i =>
      if !requestFits func arg p.length then s.answerError n pri func org tag arg 5
      else if func = 3 || func = 4 then s.answerError n pri func org tag arg 8
      else
        match s.pushBridge ([pack [(n, 4), (i, 0)], pack [(func, 12), (org, 0)], w1] ++ p.drop 2) 2 with
        | none => s.refuseRequest n pri func org tag arg
        | some s => s.modInbound fun m => Sparse.ins m i ⟨n, org, func, tag, arg, pri, stored + s.bridgeTmo⟩

/-- A reply of a node (R296). -/
def nodeReply (n org : Nat) (p : List Nat) (stamp : Nat) (s : State) : State :=
  let w0 := p.headD 0
  let w1 := (p.drop 1).headD 0
  let func := bitsOf w0 17 12
  let e := bitsOf w1 17 12
  let arg := bitsOf w1 11 0
  match Sparse.find s.bridge.txns e with
  | none => s.bump F.SB_CNT0.STRAY
  | some t =>
    let isErr := func == t.func + 0x30
    if t.set.org != org || t.set.port != n || !(isErr || func == t.func + 0x20) then s.bump F.SB_CNT0.STRAY
    else if t.quarantine then
      if isErr then s.logLate t e func (bitsOf ((p.drop 2).headD 0) 7 0) stamp else s.bump F.SB_CNT0.LATEOK
    else if isErr then
      s.closeTxn e (.error (if p.length = 3 then bitsOf ((p.drop 2).headD 0) 7 0 else 5)) stamp
    else
      let fits : Bool := match t.func with
        | 1 => p.length == 2 + t.count && bitsOf arg 5 0 + 1 == t.count
        | 2 => p.length == 2 && bitsOf arg 5 0 + 1 == t.count
        | 5 => p.length == 3
        | _ => p.length == 2
      if fits then s.closeTxn e (.reply arg (p.drop 2)) stamp else s.closeTxn e (.error 5) stamp

/-- The bridge dispatches a service frame that was stored in clk `stored` (R290). -/
def dispatchService (n stored : Nat) (s : State) : State :=
  let base := s.newestRecord n (s.rd (F.SB_PBUF.SRXBUF n))
  let w (i : Nat) : Nat := (s.ram (n / 8) (base + i)).toNat
  let p := (s.ramList (n / 8) (base + 6) (plenOf (w 0))).map (·.toNat)
  let func := bitsOf (p.headD 0) 17 12
  let mine := bitsOf (p.headD 0) 9 0 == s.origin n
  if bitOf (w 0) 17 || hKind (w 1) != 2 || p.length < 2 || !mine then s
  else if (0x21 ≤ func && func ≤ 0x25) || (0x31 ≤ func && func ≤ 0x35) then
    s.nodeReply n (hOrg (w 2)) p (w 4 + 2 ^ 18 * w 5)
  else if 1 ≤ func && func ≤ 5 then s.nodeRequest n (hPri (w 1)) (hOrg (w 2)) p stored
  else s

/-- The bridge reads the service frame that port `n` has stored, as foreground work: before a further store into SRXBUF
(R290). -/
def readService (n : Nat) (s : State) : State :=
  match (s.port n).service with
  | [] => s
  | k :: t =>
    let s := s.modPort n fun P => { P with service := t }
    if s.flag (F.SB_PBUF.EN n) then (s.crossToward (n / 8)).dispatchService n k else s

/-- Writes a frame of the bridge into a transmit buffer and releases it (R289). -/
def sendService (n d pri : Nat) (payload : List Word) (s : State) : State :=
  let h := Native.headerWords pri 2 (s.origin n) true payload.length
  let rec' := recordOf false false (h.getD 0 0) (h.getD 1 0) (h.getD 2 0) 0 (payload.map (·.toNat))
  ((s.crossAway (n / 8)).wrRams (n / 8) (s.txRecord n d) rec').release n d

/-- The host's answer to a node request (R310). -/
def hostAnswer (h : List Nat) (s : State) : State :=
  let bad (s : State) : State := s.bump F.SB_CNT1.HBAD
  let w1 := (h.drop 1).headD 0
  let ec := bitsOf ((h.drop 2).headD 0) 7 0
  let data := h.drop 3
  let i := bitsOf w1 3 0
  match Sparse.find s.bridge.inbound i with
  | none => bad s
  | some r =>
    let err := bitOf w1 17
    let se := b2n (bitOf w1 16)
    let count := if err then 0 else if r.func = 1 then bitsOf r.arg 5 0 + 1 else if r.func = 5 then 1 else 0
    if bitsOf (h.headD 0) 17 12 != 2 || h.length < 3 || data.length != count then bad s
    else
      let s := s.modInbound (Sparse.del · i)
      if err then s.answerError r.port r.pri r.func r.org r.tag r.arg ec
      else
        let arg := if r.func = 1 then pack [(se, 11), (bitsOf r.arg 5 0, 0)]
          else if r.func = 5 then pack [(se, 11)] else bitsOf r.arg 5 0
        s.answer r.port r.pri (r.func + 0x20) r.org r.tag arg data

end State

/-! ### The commands -/

/-- SERVICE_FRAME_DISPATCH (R290). -/
def execServiceFrameDispatch (p : PortId) (s : State) : Outcome :=
  ready s (·.readService p)

/-- OUTBOUND_RELEASE (R289, R293): the next request goes into OTXBUF, or the next reply (`inbound`) into ITXBUF. -/
def execOutboundRelease (p : PortId) (inbound : Bool) (s : State) : Outcome :=
  ready s fun s =>
    let d := s.rd (if inbound then F.SB_PBUF.ITXBUF p else F.SB_PBUF.OTXBUF p)
    if !s.flag (F.SB_PBUF.EN p) || (s.port p).pend.contains d then s
    else if inbound then
      match (s.port p).inq with
      | [] => s
      | f :: t => (s.modPort p fun P => { P with inq := t }).sendService p d f.1 f.2
    else
      match (s.port p).outq with
      | [] => s
      | f :: t => (s.modPort p fun P => { P with outq := t }).sendService p d f.2.1 f.2.2

/-- TRANSACTION_TIMEOUT (R293). A reply that is stored and that the bridge has not read yet has not arrived (log entry
83). -/
def execTransactionTimeout (e : Fin 64) (s : State) : Outcome :=
  ready s fun s =>
    match Sparse.find s.bridge.txns e with
    | some t => if t.quarantine then s else (s.advanceClk t.expires).closeTxn e .timeout 0
    | none => s

/-- QUARANTINE_END (R293). -/
def execQuarantineEnd (e : Fin 64) (s : State) : Outcome :=
  ready s fun s =>
    match Sparse.find s.bridge.txns e with
    | some t => if t.quarantine then (s.advanceClk t.expires).modTxns (Sparse.del · e) else s
    | none => s

/-- PREFETCH_AGE_DROP (R302): words that arrived before the last two boundaries leave the bottom of the run. -/
def execPrefetchAgeDrop (w : Fin 16) (s : State) : Outcome :=
  ready s fun s =>
    let old := ((s.window w).buf.takeWhile fun x => 2 ≤ x.2).length
    if old = 0 then s
    else (s.modWindow w fun W => { W with buf := W.buf.drop old }).wr (F.SB_WPF.PFBASE w) (s.rd (F.SB_WPF.PFBASE w) + old)

/-- The last poll of a window was open at the boundary of this tick (R308). -/
def State.pollWasOpen (s : State) (w : Nat) : Bool :=
  s.bridge.txns.any (fun e => e.2.kind == .poll && e.2.window == w && !e.2.quarantine) ||
    (match (s.window w).pollClosed with | some k => s.tick.boundaryClk < k | none => false)

/-- POLL_DUE (R308, R292, R306): in the clk after a boundary whose tick number is a multiple of PINT. -/
def execPollDue (w : Fin 16) (s : State) : Outcome :=
  ready s fun s =>
    let pint := s.rd (F.SB_WPOLL.PINT w)
    if !s.winLive w || pint = 0 || s.tickNo % pint ≠ 0 || (s.window w).polled then s
    else
      let open' := s.pollWasOpen w
      let k := s.tick.boundaryClk + 1
      let s := (s.advanceClk k).modWindow w fun W => { W with polled := true }
      if open' || s.lockedOther (s.winPort w) (s.winOrg w) then s.bump F.SB_CNT0.POLLSKIP
      else
        match s.freeTxn with
        | none => s.bump F.SB_CNT0.POLLSKIP
        | some e => s.openTxn e .poll w (s.winSet w) 5 (s.rd (F.SB_WPOLL.POFS w)) 1 0 0 [] k

/-- LEASE_EXPIRY (R307): event 0x03. -/
def execLeaseExpiry (p : PortId) (s : State) : Outcome :=
  ready s fun s =>
    match (s.port p).lock with
    | some (org, w, some t) => ((s.advanceClk t).endLock p org).bridgeEvent 0x03 p w org []
    | _ => s

/-- HOST_ANSWER (R310, R230). -/
def execHostAnswer (s : State) : Outcome :=
  ready s fun s =>
    match s.boundQueue 2 with
    | none => s
    | some q =>
      match s.takePacket q with
      | none => s
      | some (h, s) => if h.any (·.bad.isSome) then s.badPacket q h else s.hostAnswer (h.map (·.word.toNat))

/-- INBOUND_EXPIRY (R310). -/
def execInboundExpiry (i : Fin 16) (s : State) : Outcome :=
  ready s fun s =>
    match Sparse.find s.bridge.inbound i with
    | none => s
    | some r =>
      ((s.advanceClk r.expires).modInbound (Sparse.del · i)).answerError r.port r.pri r.func r.org r.tag r.arg 4

end Sys2Proof.Machine
end

