-- ==== Sys2Proof/Machine/Live.lean ====
section
/-! DEFINITION. Staged values go live (R11, R43, R396): the register store takes them, and each unit takes what a
change of its settings brings. -/

namespace Sys2Proof.Machine

/-- Staging marker: a BUFFER_SET names this buffer, whatever its descriptor holds (R184, R207). -/
def touchBuffer (n d : Nat) : Nat := 0xF000000 + (n * 128 + d)

/-- Staging marker: a SPLICE_SET or host write names this window (R302). -/
def touchWindow (w : Nat) : Nat := 0xF100000 + w

/-- The register of a dword address, if it has one. -/
def regOf (a : Nat) : Option Reg :=
  match targetOf a with
  | .reg r => some r
  | .cellReg _ r => some r
  | .blockReg _ r => some r
  | _ => none

/-- The value at which a key of the register store stands after reset. -/
def keyReset (k : Nat) : Nat :=
  if 0x4000000 ≤ k then 0
  else match regOf (k / 64) with
    | some r => match r.find? fun f => f.lo == k % 64 with | some f => f.reset | none => 0
    | none => 0

/-- A value cut to the width of its key. -/
def fitKey (k v : Nat) : Nat :=
  if 0x4000000 ≤ k then v % 2 ^ 18
  else match regOf (k / 64) with
    | some r => match r.find? fun f => f.lo == k % 64 with | some f => v % f.size | none => 0
    | none => 0

/-- A key that holds a value; the others only tell a boundary what to do. -/
def holdsValue (k : Nat) : Bool := k < powerKey 0

namespace State

/-- The serving cell sends a frame that no bus shows: internal loopback (Table 6-7). -/
def loops (s : State) (n : Nat) : Bool := s.testMode n == 2 && (s.cell (s.servingCell n)).attempt.isSome

/-- The mode or timing that waits for a frame boundary of a port takes effect on its bus: pending buffers are withdrawn, and
no frame fetched before is sent (R123, R142, R207, R229). A compatibility port has no network frames and takes part in
no round (R120). -/
def applyTiming (n : Nat) (s : State) : State :=
  if !(s.port n).timingChange || s.loops n then s
  else
    let s := s.withdrawAll n 1
    let c := home n
    let s := s.modPort n fun P =>
      { P with timingChange := false, busProto := s.rd (F.CL_OPMODE.PROTO c), busTest := s.rd (F.CL_OPMODE.TEST c) }
    let s := s.modCell (s.servingCell n) fun C => { C with ready := none }
    let s := if s.compat n then (s.abortRound n 3 0x3FF 4).modPort n fun P => { P with net := none, netWait := [], sendWake := none }
      else s
    s.integrate (s.servingCell n)

/-- A mode or timing change goes live for a port: on an idle bus it takes effect at once (log entry 20). A round that is not
committed aborts (R334). A rate search ends with listen mode, and a found rate with new timing (R147). -/
def timingLive (n : Nat) (newRate : Bool) (s : State) : State :=
  let c := s.servingCell n
  let s := s.abortRound n 3 0x3FF 4
  let s := if s.rd (F.CL_OPMODE.TEST (home n)) != 1 && !s.quiet n then s.rateStop c else if newRate then s.rateEnd c else s
  let s := s.modPort n fun P => { P with timingChange := true }
  if s.busIdle n then s.applyTiming n else s

/-- CL_ERRCTRL goes live with a change while the cell waits in BUS_OFF (R158). -/
def recoveryLive (n : Nat) (s : State) : State :=
  let c := s.servingCell n
  if s.conf c ≠ 3 || s.rd (F.CL_STATUS.RECOV c) = 3 || (s.cell c).countAt.isSome then s
  else
    let mode := s.rd (F.CL_ERRCTRL.RECMODE (home n))
    if mode = 0 then s.beginCounting c 0
    else if mode = 1 then s.wr (F.CL_STATUS.RECOV c) 1
    else if s.rd (F.CL_ERRCTRL.DELAY (home n)) ≤ (s.cell c).recDelay then s.beginCounting c 2
    else s.wr (F.CL_STATUS.RECOV c) 2

/-- TK_SRC goes live with a change (Table 2-7, R61): `before` is the state before. -/
def sourceLive (before : State) (s : State) : State :=
  let src := s.rd F.TK_SRC.SRC
  let other := before.rd F.TK_SRC.SRC != src || (src == 3 && before.rd F.TK_SRC.PORT != s.rd F.TK_SRC.PORT)
  let fell := before.flag F.TK_STATUS.FALLBACK
  if !other && !fell then s
  else
    let s := s.returnToSource
    if src = 0 && !fell then s else s.tickEvent 0x04

/-- The role changes to `r`; a port whose frame is on the bus follows at its next frame boundary (R380), and listen mode ends
with QUIET on an idle one (R147). -/
def setRole (r : Nat) (s : State) : State :=
  let was := s.isStandby
  let s := s.wr F.SP_PSTAT.ROLE r
  if was = s.isStandby then s
  else each ((List.range 96).filter fun n => s.portState n == 0) (fun n s =>
    if s.busIdle n then s.endListening n else s.modPort n fun P => { P with roleChange := !P.roleChange }) s

/-- SP_PAIR goes live with a change of EN (R370, R445): the tether PLL runs while EN is 1, and the link trains. -/
def pairLive (s : State) : State :=
  if s.flag F.SP_PAIR.EN then (s.wr F.SYS_PLLSTAT.TRUN 1).wr F.SP_PSTAT.LINK 1
  else
    let s := each [F.SYS_PLLSTAT.TRUN, F.SYS_PLLSTAT.TLOCK, F.SP_PSTAT.LINK, F.SP_PSTAT.PELIG,
      F.SP_PSTAT.RESYNC, F.SP_PAIR.RSREQ, F.SP_PSTAT.MATCHRUN] (fun f s => s.wr f 0) (s.setRole 0)
    s.setCause 7

/-- Makes a table of staged values live at the boundary that opens tick `tick`. -/
def goLive (st : Sparse Nat) (tick : Nat) (s : State) : State :=
  let before := s
  let has (f : Field) : Bool := st.any fun e => e.1 == f.key
  let within (lo hi : Nat) : Bool := st.any fun e => lo ≤ e.1 && e.1 < hi
  let s := { s with regs := (st.filter fun e => holdsValue e.1).foldl (fun m e => Sparse.put (keyReset e.1) m e.1 e.2) s.regs }
  -- buffers and filters (R207, R184, R179)
  let s := each (Sparse.range st (touchBuffer 0 0) (touchBuffer 96 0)) (fun e s =>
    let n := (e.1 - touchBuffer 0 0) / 128
    let d := (e.1 - touchBuffer 0 0) % 128
    s.bufferLive n d (Sparse.range before.regs (descKey n d 0) (descKey n d 4))) s
  let fs := ((Sparse.range st (filtKey 0 0 0) (filtKey 96 0 0)).map fun e => (e.1 - filtKey 0 0 0) / 6).eraseDups
  let s := each fs (fun i s =>
    s.queueRewrite (i / 64) (i % 64) true (Sparse.range before.regs (filtKey 0 i 0) (filtKey 0 i 6))) s
  -- queues (R216, R217, R234)
  let qs := (List.range 0x204).filter queueExists
  let s := each qs (fun q s =>
    if has (F.QCFG.EN q) || has (F.QCFG.BASE q) || has (F.QCFG.BIND q) then
      let s := s.emptyQueue q 4
      if q < 0x1B0 && q % 4 = 2 && q % 36 < 32 then
        s.modCell (s.servingCell (q / 36 * 8 + q % 36 / 4)) fun C =>
          { C with
            ready := C.ready.filter (·.src != .tq)
            fetch := if C.fetch = some .tq then none else C.fetch
            attempt := C.attempt.map fun a => if a.frame.src = .tq then { a with orphan := true } else a }
      else s
    else if has (F.QWM.HWM q) || has (F.QWM.LWM q) then s.watch q 1
    else s) s
  let s := each [qCommand, qReply, qEvent] (fun q s => onlyIf (has (F.QWM.HWM q) || has (F.QWM.LWM q)) (watch q 1) s) s
  -- modes and timing (R123, R142)
  let s := each (List.range 96) (fun n s =>
    let a := 0x10000 + home n * 0x200
    let s := onlyIf (within ((a + 2) * 64) ((a + 3) * 64)) (recoveryLive n) s
    onlyIf (within ((a + 1) * 64) ((a + 2) * 64) || within ((a + 0x20) * 64) ((a + 0x23) * 64))
      (timingLive n (within ((a + 0x20) * 64) ((a + 0x22) * 64))) s) s
  -- knot list heads (R262, R265)
  let s := if within (0xC00 * 64) (0x1000 * 64) then
      let s := (s.wr F.GW_SWTICK.TICKNO tick).refreshMapstat
      s.post 0x08 0x04 0 (words 2 tick ++ [s.enabledLists.length] ++ words 2 s.schedLength)
    else s
  -- bindings (R268)
  let s := if within (bindKey 0 0) (bindKey 2048 0) then
      (each (List.range 2048) (fun n s =>
        let ws := Sparse.range st (bindKey n 0) (bindKey n 12)
        let other := ws.any fun e => e.1 != bindKey n 1 || e.2 / 256 != before.rdK e.1 / 256
        onlyIf other (clearBind n) s) s).refreshPfstat
    else s
  -- windows (R302, R303)
  let s := each (Sparse.range st (touchWindow 0) (touchWindow 16)) (fun e s => s.spliceLive (e.1 - touchWindow 0)) s
  -- tick source and period (R61)
  let s := onlyIf (within (F.TK_SRC.SRC.addr * 64) ((F.TK_SRC.SRC.addr + 1) * 64)) (sourceLive before) s
  let s := if has F.TK_PERIOD.PERIOD && s.sourceNow = 0 then s.modTick fun u => { u with adopted := none } else s
  -- pair and power states (R370, R320)
  let s := onlyIf (has F.SP_PAIR.EN) pairLive s
  each (Sparse.range st (powerKey 0) (powerKey 96)) (fun e s => s.powerLive (e.1 - powerKey 0) (e.2 - 1) tick) s

/-- What remains staged when the staging copies `was` have gone live: what the boundary clk has staged since (R44). -/
def stagedSince (s : State) (was : Sparse Nat) : Sparse Nat :=
  let live (k : Nat) : Nat := Sparse.get (keyReset k) s.regs k
  let back := was.filter fun e => holdsValue e.1 && (Sparse.find s.stage e.1).isNone
  back.foldl (fun m e => Sparse.ins m e.1 (live e.1)) (s.stage.filter fun e => Sparse.get (live e.1) was e.1 != e.2)

/-- Every staging copy goes live, as it stood when the boundary clk began (R44, R396). -/
def stageLive (tick : Nat) (s : State) : State :=
  let was := s.stageWas.getD s.stage
  ({ s with stage := s.stagedSince was, stageWas := none }).goLive was tick

end State
end Sys2Proof.Machine
end

