-- ==== Sys2Proof/Machine/Pair.lean ====
section
/-! DEFINITION. The hot-standby pair (R370 to R383): link-up, the configuration transfer, health traffic, the digest,
resynchronization and switchover. -/

namespace Sys2Proof.Machine
namespace State

/-! ### Roles -/

/-- The tether link is up. -/
def linkUp (s : State) : Bool := s.rd F.SP_PSTAT.LINK == 2

/-- Whether some port is ACTIVE, other than as the QUIET port of a standby: the device has been running (R370). -/
def running (s : State) : Bool := (List.range 96).any fun n => s.portState n == 0 && !s.quiet n

/-- A new active device gives up what it has of the partner's open sequences: a forwarded command whose result is still to
come, or that has not replied, takes no reply, and one that waits does not start (R383). `has`: the partner reports the
SEQ as open. -/
def yieldStream (has : Nat → Bool) (s : State) : State :=
  let gone := s.engine.handoffs.filter fun h => h.src == .stream && (h.ended.isNone || has h.seq)
  let waits : Bool := match s.engine.waiting with | some w => w.pkt.src == .stream && has w.pkt.seq.toNat | none => false
  let slots := gone.map (·.slot) ++ (if waits then (s.engine.waiting.map (·.slot)).toList else [])
  let mine (i : Nat) : Bool := (Sparse.find s.engine.ledger i).any fun e => has e.seq
  let detach (i : Nat) : Nat := if mine i then noSlot else i
  let commits := match s.engine.commit with | some c => (c.slot :: c.others).filter mine | none => []
  let s := s.modEngine fun g =>
    { g with
      handoffs := g.handoffs.filter (!gone.contains ·)
      waiting := if waits then none else g.waiting
      behind := g.behind.filter fun e => !(e.2.1.src == .stream && has e.2.1.seq.toNat)
      commit := g.commit.map fun c => { c with slot := detach c.slot, others := c.others.map detach }
      ledger := (slots ++ commits).foldl Sparse.del g.ledger }
  onlyIf waits (fun s => (s.wr F.CE_STAT.EXEC 0).wr F.CE_STAT.WAIT 0) s

/-- The partner's open sequences enter the ledger with the PARTNER mark, as a command's own entry would (R383, R405). -/
def takeLedger (s : State) : State :=
  let l := s.pair.partnerLedger
  let s := s.yieldStream fun q => l.any (·.1 == q)
  let s := each l (fun e s =>
    let s := s.setLedger (·.filter fun x => !(x.2.seq == e.1 && x.2.state == 2))
    let ent : LedgerEntry := ⟨e.1, e.2.1, e.2.2.1, e.2.2.2, 0, false, true, 0, false⟩
    match s.freeSlot, s.oldestDone with
    | some i, _ => s.setLedger (Sparse.ins · i ent)
    | none, some i => s.setLedger fun l => Sparse.ins (Sparse.del l i) i ent
    | none, none => s) s
  s.modPair fun p => { p with partnerLedger := [], partnerDone := [], streamStatus := [] }

/-- The list-close mark of the tick arrives at a standby, which applies its host-write list (R375), one write per clk from the
next clk on (log entry 98). -/
def closeList (s : State) : State :=
  if s.pair.listClose then s
  else (s.modPair fun p => { p with listClose := true }).applyFrom (s.clk + 1)

/-- The switchover at a boundary (R380, R381). -/
def switchOver (s : State) : State :=
  let toActive := s.isStandby
  let s := s.setRole (if toActive then 1 else 2)
  let s := each (s.ports.map (·.1)) (fun n s =>
    let s := s.modPort n fun P => { P with pend := [] }
    s.modCell (s.servingCell n) fun C =>
      match C.ready with
      | some f => (match f.src with | .buffer _ => { C with ready := none } | _ => C)
      | none => C) s
  let s := s.modPair fun p => { p with preEmit := if toActive then some [] else none }
  let s := onlyIf toActive (·.takeLedger.closeList) s
  let s := if s.rd F.TK_SRC.SRC = 0 then (if toActive then s.setTick 0 else s.setTick 1) else s
  ((s.bump F.SP_DIGCNT.SWITCH).pairEvent 0x03 []).endHandoff 0x61 0 0 []

/-- A switchover that is due is made, or prevented by the loss of the tether or by a standby that is ineligible, or has been
in this tick (R381, R382, R384). A request of such a standby that waits for its partner ends. -/
def dueSwitch (s : State) : State :=
  let lapsed := s.pair.lapsed
  let s := s.modPair fun p => { p with lapsed := false }
  let able := s.linkUp && !lapsed && (if s.isStandby then s.flag F.SP_PSTAT.ELIG else s.flag F.SP_PSTAT.PELIG)
  if !s.pair.switchPending then onlyIf (s.isStandby && !able) (endHandoff 0x61 0 0x0A []) s
  else
    let ok := s.pair.alone || able
    let s := s.modPair fun p => { p with switchPending := false, alone := false }
    if ok && s.rd F.SP_PSTAT.ROLE != 0 then s.switchOver else s.endHandoff 0x61 0 0x0A []

/-! ### Resynchronization (R378, R379) -/

/-- A resynchronization starts anew (R378): marks and matches are empty, the standby marks from the next boundary on, and
the active device copies its emit half into the snapshot traffic. -/
def beginResync (s : State) : State :=
  let s := (s.wr F.SP_PSTAT.RESYNC 1).wr F.SP_PSTAT.MATCHRUN 0
  let s := (s.modPair fun p => { p with resyncWait := false, snapTicks := none, overflow := false }).modGw fun g =>
    { g with marked := [], marking := false }
  if s.isStandby then s.setCause 6 else s.send (.snapshot s.emit)

/-- The statuses of forwarded commands are compared with those that the active device reports, of each SEQ in order
(R374). -/
def compareStatuses (s : State) : State :=
  each s.pair.streamStatus (fun e s =>
    match s.pair.partnerDone.find? fun r => r.1 == e.1 with
    | none => s
    | some r =>
      let s := s.modPair fun p =>
        { p with streamStatus := p.streamStatus.erase e, partnerDone := p.partnerDone.erase r }
      onlyIf (r.2 != e.2) (setCause 5) s) s

/-- A ledger entry of the partner as the health traffic reports it: an open one, or the status of a forwarded command. -/
def reportLedger (r : LedgerReport) (s : State) : State :=
  let q := r.seq.toNat
  s.modPair fun p =>
    let l := p.partnerLedger.filter fun e => e.1 != q
    if r.state = 2 then
      { p with partnerLedger := l, partnerDone := if r.carried then p.partnerDone ++ [(q, r.rest.toNat)] else p.partnerDone }
    else { p with partnerLedger := l ++ [(q, r.state.toNat, r.k.toNat, r.rest.toNat)] }

/-- A device takes what the partner's health traffic of a tick reports (R376, R372, R375, R379, R381). -/
def health (h : Health) (s : State) : State :=
  let s := s.modPair fun p =>
    { p with healthSeen := true, healthMissed := 0, partnerFrame := false, wasEligible := s.flag F.SP_PSTAT.ELIG }
  let was := s.flag F.SP_PSTAT.PELIG
  let s := s.wr F.SP_PSTAT.PELIG (b2n h.elig)
  let s := (each h.ledger reportLedger s).compareStatuses
  if s.isStandby then
    let s := onlyIf h.listClose closeList s
    let s := each h.ports (fun e s =>
      let n := e.1.val
      let st := e.2.toNat
      if st = s.portState n then s
      else if s.asleep n && st < 2 then s.arouse n 6 0 0x3FF st s.tickAfter
      else s.modPair fun p => { p with ports := (p.ports.filter fun x => x.1 != n) ++ [(n, st)] }) s
    let s := onlyIf h.overflow (setCause 3) s
    let s := onlyIf (h.rsReq && !s.flag F.SP_PSTAT.RESYNC && !s.flag F.SP_PAIR.RSREQ)
      (fun s => ((s.wr F.SP_PAIR.RSREQ 1).modPair fun p => { p with resyncWait := true }).sendHealth [] false) s
    let auto := was && !h.elig && s.flag F.SP_PAIR.AUTO && s.flag F.SP_PSTAT.ELIG
    onlyIf (h.switchReq || auto) (·.modPair fun p => { p with switchPending := true }) s
  else if s.rd F.SP_PSTAT.ROLE = 1 then
    let s := if h.rsReq then s.wr F.SP_PAIR.RSREQ 1 else if s.pair.partnerReq then s.wr F.SP_PAIR.RSREQ 0 else s
    let s := s.modPair fun p => { p with partnerReq := h.rsReq, lapsed := p.lapsed || !h.elig }
    let s := onlyIf (h.elig && !was) endResync s
    let wanted := ((h.rsReq || h.wants) && !s.flag F.SP_PSTAT.RESYNC) || h.again
    let s := onlyIf wanted (·.modPair fun p => { p with resyncWait := true }) s
    onlyIf (h.switchReq && h.elig && !s.pair.switchPending)
      (fun s => (s.modPair fun p => { p with switchPending := true }).sendHealth [] false) s
  else s

/-- RSREQ is written 1 (R379). -/
def requestResync (s : State) : State :=
  if !s.linkUp || s.flag F.SP_PSTAT.RESYNC || s.rd F.SP_PSTAT.ROLE = 0 then s
  else ((s.wr F.SP_PAIR.RSREQ 1).modPair fun p => { p with resyncWait := true }).sendHealth [] false

/-- Health traffic is counted at a boundary (R382), until the tether counts as lost. -/
def countHealth (s : State) : State :=
  if s.rd F.SP_PSTAT.ROLE = 0 || s.pair.lost then s
  else s.modPair fun p => { p with healthMissed := if p.healthSeen then 0 else p.healthMissed + 1, healthSeen := false }

/-! ### The configuration transfer (R370) -/

/-- Keys that the transfer carries: st fields, descriptors, filters, bindings and policies; not SYS_SYSADDR
(R438). -/
def transferred (k : Nat) : Bool :=
  if 0x4000000 ≤ k then holdsValue k
  else match regOf (k / 64) with
    | some r => k / 64 != 0 && r.any fun f => f.lo == k % 64 && f.acc == .st
    | none => false

/-- The active device sends its configuration and its open sequences at link-up (R370, R383). -/
def sendConfiguration (s : State) : State :=
  let l := s.engine.ledger.filter fun e => e.2.state != 2
  each l (fun e => sendEntry e.2) (s.send (.config (s.regs.filter fun e => transferred e.1) (s.stage.filter fun e => transferred e.1)
    s.knots s.scales))

/-- What the transfer makes of the registers that it carries, by key: a value of the active device, and for a key that only
this device has set, its reset value. -/
def transferredRegs (regs : List (Nat × Nat)) (s : State) : Sparse Nat :=
  let new := (regs.filter fun e => transferred e.1).foldl (fun m e => Sparse.ins m e.1 (fitKey e.1 e.2)) ([] : Sparse Nat)
  let old := (s.regs.filter fun e => transferred e.1 && (Sparse.find new e.1).isNone).map fun e => (e.1, keyReset e.1)
  old.foldl (fun m e => Sparse.ins m e.1 e.2) new

/-- The configuration of the active device replaces the standby's (R370), but for what is local to it (R438): what differs
goes live as at a boundary. -/
def takeConfiguration (regs stage : List (Nat × Nat)) (knots scale : List (Nat × Word)) (s : State) : State :=
  let all := s.transferredRegs regs
  let diff : Sparse Nat := all.filter fun e => Sparse.get (keyReset e.1) s.regs e.1 != e.2
  let bufs := (Sparse.range diff (descKey 0 0 0) (descKey 96 0 0)).map fun e => touchBuffer 0 0 + (e.1 - descKey 0 0 0) / 4
  let wins := (List.range 16).filter fun w => (Sparse.range diff ((0x80000 + 8 * w) * 64) ((0x80004 + 8 * w) * 64)) != []
  let diff : Sparse Nat := (bufs ++ wins.map touchWindow).foldl (fun m k => Sparse.ins m k 1) diff
  let own := s.stage.filter fun e => e.1 < 64
  let s := ({ s with stage := [] }).goLive diff s.tickNo
  let s := { s with regs := all.foldl (fun m (e : Nat × Nat) => Sparse.put (keyReset e.1) m e.1 e.2) s.regs }
  let put (m : Sparse Nat) (e : Nat × Nat) : Sparse Nat := Sparse.put (Sparse.get (keyReset e.1) s.regs e.1) m e.1 (fitKey e.1 e.2)
  let st := (stage.filter fun (e : Nat × Nat) => transferred e.1).foldl put own
  let putW (m : Sparse Word) (e : Nat × Word) : Sparse Word := Sparse.put 0 m e.1 e.2
  let kn := (knots.filter fun (e : Nat × Word) => e.1 < 262144).foldl putW []
  let sc := (scale.filter fun (e : Nat × Word) => e.1 < 12288).foldl putW []
  let s := { s with stage := st, knots := kn, scales := sc }
  s.modPair fun p => { p with resyncWait := true }

end State

/-! ### The commands -/

/-- TETHER_PLL_LOSS (R445). -/
def execTetherPllLoss (s : State) : Outcome :=
  ready s fun s =>
    if !s.flag F.SYS_PLLSTAT.TRUN then s
    else
      let s := (s.wr F.SYS_PLLSTAT.TLOCK 0).bump F.SYS_PLLSTAT.TLOSS
      let lost := [0, 1, 2].filter fun l => !bitOf (s.rd F.SP_LANE.FAILED) l
      let s := s.modWear fun w => { w with pllLanes := lost }
      let s := each [0, 1, 2] (fun l => State.failLane l 7) s
      ((s.wr F.SP_PSTAT.LINK 0).setCause 2).raisePwr.post 0x0E 0x04 0 (words 2 s.tickNo)

/-- TETHER_PLL_RELOCK (R445): the lanes that failed with the PLL train again; one that had failed before stays failed
(R343). -/
def execTetherPllRelock (s : State) : Outcome :=
  ready s fun s =>
    if !s.flag F.SYS_PLLSTAT.TRUN || s.flag F.SYS_PLLSTAT.TLOCK then s
    else
      let s := (s.wr F.SYS_PLLSTAT.TLOCK 1).wr F.SP_PSTAT.LINK (max 1 (s.rd F.SP_PSTAT.LINK))
      each s.wear.pllLanes (fun l s =>
        let f := s.rd F.SP_LANE.FAILED
        let s := onlyIf (bitOf f l) (·.wr F.SP_LANE.FAILED (f - 2 ^ l)) s
        let s := s.modWear fun w => { w with cause := Sparse.del w.cause (0x2000 + l) }
        if s.rd F.SP_LANE.PHYA = 3 then s.wr F.SP_LANE.PHYA l
        else if s.rd F.SP_LANE.PHYB = 3 then s.wr F.SP_LANE.PHYB l else s)
        (s.modWear fun w => { w with pllLanes := [] })

/-- A failed lane that still carries a logical lane is replaced at link-up (R369); with no lane to take its place, event
0x0C. -/
def State.relinkLane (l : Nat) (s : State) : State :=
  if !bitOf (s.rd F.SP_LANE.FAILED) l || !s.laneInUse l then s
  else onlyIf s.spareLane.isNone (State.wearEvent 0x0C 2 l (Sparse.get 0 s.wear.cause (0x2000 + l)) 0x3F []) (s.moveLane l)

/-- TETHER_LINK_UP (R369, R370, R382): the partners have exchanged identities. -/
def execTetherLinkUp (partnerSenior partnerRan : Bool) (delay : BitVec 12) (s : State) : Outcome :=
  ready s fun s =>
    if !s.flag F.SP_PAIR.EN || s.linkUp then s
    else
      let senior := s.flag F.SP_PSTAT.SENIOR
      if senior = partnerSenior then (s.wr F.SP_PSTAT.LINK 1).pairEvent 0x06 []
      else
        let ran := s.running
        let active := if ran = partnerRan then senior else ran
        let s := ((s.wr F.SP_PSTAT.LINK 2).wr F.SP_TDLY.DELAY delay.toNat).wr F.SP_PSTAT.RESYNC 0
        let s := s.modPair fun p =>
          { p with healthMissed := 0, healthSeen := true, partnerFrame := false, out := [], overflow := false, awaited := []
                   early := [], partnerLedger := [], partnerDone := [], streamStatus := [], lost := false, lapsed := false
                   partnerReq := false, resyncWait := false, snapTicks := none }
        let s := each [0, 1, 2] State.relinkLane s
        let both := s.rd F.SP_PSTAT.ROLE = 1 && !active
        if both then (s.setCause 7).modPair fun p => { p with switchPending := true, alone := true }
        else
          let s := s.setRole (if active then 1 else 2)
          let s := onlyIf (!active && s.rd F.TK_SRC.SRC == 0) (State.setTick 1) s
          if active then s.sendConfiguration else s.setCause 7

/-- CONFIGURATION_TRANSFER_DONE (R370): the standby has the configuration of the active device, and a resynchronization
follows on both. -/
def execConfigurationTransferDone (regs stage : List (Nat × Nat)) (knots scale : List (Nat × Word)) (s : State) : Outcome :=
  ready s fun s =>
    if !s.linkUp || s.rd F.SP_PSTAT.ROLE = 0 then s
    else if s.isStandby then s.takeConfiguration regs stage knots scale
    else s.modPair fun p => { p with resyncWait := true }

/-- HEALTH_TRAFFIC (R376, R382): it counts in the clk of the HLOSS-th boundary too. -/
def execHealthTraffic (h : Health) (s : State) : Outcome := ready s fun s => if s.linkUp then s.health h else s

/-- DIGEST_RECEIVED (R377): the partner's digest of the oldest tick whose own has none to meet yet. One that comes in the
tick in which it was found missing is late; one that comes before its own is kept for it (log entry 102). -/
def execDigestReceived (digest : BitVec 24) (void : Bool) (s : State) : Outcome :=
  ready s fun s =>
    if !s.isStandby || !s.linkUp then s
    else
      match s.pair.awaited with
      | x :: t => (s.modPair fun p => { p with awaited := t }).compareDigest x.2.1 x.2.2 digest.toNat void
      | [] =>
        if s.pair.missTick = some s.tickNo then s.modPair fun p => { p with missTick := none }
        else s.modPair fun p => { p with early := p.early ++ [(digest.toNat, void)] }

/-- DIGEST_MISSING (R377): 1,000 clk after the next boundary. -/
def execDigestMissing (s : State) : Outcome :=
  ready s fun s =>
    match s.pair.awaited with
    | x :: t =>
      if !s.isStandby || !s.linkUp || x.1 = s.tickNo then s
      else ((s.advanceClk (s.tick.boundaryClk + 1000)).bump F.SP_DIGCNT.MISSING).modPair fun p =>
        { p with awaited := t, missTick := some s.tickNo }
    | [] => s

/-- RESYNC_START (R378): at the next HOUSE phase of the active device. -/
def execResyncStart (s : State) : Outcome :=
  ready s fun s =>
    if !s.linkUp || !s.pair.resyncWait || (!s.isStandby && s.phase != 3) then s else s.beginResync

/-- SNAPSHOT_WRITE (R240, R378): a snapshot dword that is not marked and that this tick has not written, in HOUSE only. -/
def execSnapshotWrite (i : BitVec 15) (data : Dword) (s : State) : Outcome :=
  ready s fun s =>
    if s.isStandby && s.flag F.SP_PSTAT.RESYNC && s.phase = 3 && !s.gateway.marked.contains i.toNat &&
        !s.gateway.wrote.contains i.toNat then
      (s.wrEmit (2 * i.toNat) data.lo).wrEmit (2 * i.toNat + 1) data.hi
    else s

/-- SNAPSHOT_COMPLETE (R378, R379): event 0x04, and the partner hears of it. -/
def execSnapshotComplete (s : State) : Outcome :=
  ready s fun s =>
    if s.isStandby && s.flag F.SP_PSTAT.RESYNC && s.pair.snapTicks.isNone && !s.pair.resyncWait then
      let s := (s.wr F.SP_PAIR.RSREQ 0).wr F.SP_PSTAT.MATCHRUN 0
      let s := s.modPair fun p => { p with snapTicks := some 0 }
      ((s.modGw fun g => { g with marked := [], marking := false }).pairEvent 0x04 []).sendHealth [] false
    else s

/-- RESYNC_TIMEOUT (R378): ELIGN matching digests have not come within 256 ticks. The resynchronization starts again, on the
active device too. -/
def execResyncTimeout (s : State) : Outcome :=
  ready s fun s =>
    match s.pair.snapTicks with
    | some n =>
      if 256 ≤ n && s.isStandby then
        let s := s.modPair fun p => { p with resyncWait := true, snapTicks := none }
        s.send (.health { s.healthReport [] false with again := true })
      else s
    | none => s

/-- HEALTH_LOSS (R382): HLOSS boundaries have passed without health traffic, whether or not the lanes have failed. -/
def execHealthLoss (s : State) : Outcome :=
  ready s fun s =>
    if s.pair.lost || s.rd F.SP_PSTAT.ROLE = 0 || s.pair.healthMissed < s.rd F.SP_PAIR.HLOSS then s
    else
      let take := s.isStandby && s.flag F.SP_PAIR.AUTO && s.pair.wasEligible && !s.pair.partnerFrame
      let s := (s.wr F.SP_PSTAT.LINK 0).setCause 2
      let s := s.modPair fun p => { p with switchPending := take, alone := take, lost := true }
      onlyIf s.isStandby (State.pairEvent 0x05 []) s

end Sys2Proof.Machine
end

