-- ==== Sys2Proof/Machine/Pins.lean ====
section
/-! DEFINITION. The pins of the VIOP and VIOH banks, what the device drives on them, and the test access port
(chapters 17 and 18; log entry 118). -/

namespace Sys2Proof.Machine

/-- A pin of the VIOP bank or of the VIOH bank (R463, R469 to R471). -/
inductive Pin
  | txd (n : Nat) | rxd (n : Nat) | lm (n i : Nat) | wake (n : Nat)
  | tickIn | tickwIn | tickOut | tickwOut | senior | bootsel (i : Nat) | portstart | resetN | refclk
  | tck | tms | tdi | tdo | trstN
  | hclk | hcsN | hweN | hoeN | haddr (i : Nat) | hdata (i : Nat) | hpar (i : Nat) | irqN (k : Nat)
  deriving DecidableEq, Repr

/-- What the device does on a pin. -/
inductive Drive
  /-- it drives nothing: an input, or an output at high impedance -/
  | highZ
  | level (b : Bool)
  /-- it drives the bits of the frame, the flag or the scan register that is under way -/
  | serial
  /-- it drives a level while the host reads -/
  | onRead (b : Bool)
  deriving DecidableEq, Repr

/-- The pins that boundary scan covers (R467), each at its place in the register. -/
def Pin.all : List Pin :=
  (List.range 96).flatMap (fun n => [.txd n, .rxd n, .lm n 0, .lm n 1, .wake n]) ++
  [.tickIn, .tickwIn, .tickOut, .tickwOut, .senior, .bootsel 0, .bootsel 1, .portstart, .resetN, .refclk,
    .tck, .tms, .tdi, .tdo, .trstN, .hclk, .hcsN, .hweN, .hoeN] ++
  (List.range 20).map .haddr ++ (List.range 36).map .hdata ++ [.hpar 0, .hpar 1] ++ (List.range 4).map .irqN

/-- The place of a pin in the boundary-scan register. -/
def Pin.place (p : Pin) : Nat := Pin.all.idxOf p

/-- The pins that the device can drive, the scan output aside. -/
def Pin.drives : Pin → Bool
  | .txd _ | .lm _ _ | .wake _ | .tickOut | .tickwOut | .hdata _ | .hpar _ | .irqN _ => true
  | _ => false

/-- The code of a test instruction in the 4-bit instruction register (R467): BYPASS is all ones (IEEE 1149.1), the others
are open (log entry 118). -/
def TapInstr.code : TapInstr → BitVec 4
  | .bypass => 0xF
  | .samplePreload => Config.tapCode 0
  | .extest => Config.tapCode 1
  | .idcode => Config.tapCode 2

namespace State

/-- The tether's lane transmitters are in electrical idle (Table 17-4): from a reset to READY, and while the tether PLL does
not run (R445). -/
def tetherIdle (s : State) : Bool := s.power.phase != .ready || !s.flag F.SYS_PLLSTAT.TRUN

/-- The serving cell of port `n` has a frame or a flag of its own on the bus. -/
def transmitting (s : State) (n : Nat) : Bool :=
  let C := s.cell (s.servingCell n)
  (C.attempt.isSome && s.testMode n != 2) || C.flag.any (!·)

/-- What a unit of the device does on a pin (Table 17-4, R65, R320, R323, R428 to R430). Before READY no unit drives a port
or tick pin other than at its reset level. -/
def unitDrive (s : State) : Pin → Drive
  | .txd n => if s.power.phase == .ready && s.transmitting n then .serial else .level true
  | .lm n i => .level ((s.port n).lm.testBit i)
  | .wake n => if (s.port n).wakeDrive.any (· ≤ s.clk) then .level false else .highZ
  | .tickOut => .level s.tickOutPin
  | .tickwOut => .level s.tickwOutPin
  | .tdo => .serial
  | .hdata i => if s.power.phase = .inReset then .highZ else .onRead (s.hostOut.getLsbD i)
  | .hpar i => if s.power.phase = .inReset then .highZ else .onRead (s.hostPar.getLsbD i)
  | .irqN k => match s.settleAll.irqPin k with | some b => .level b | none => .highZ
  | _ => .highZ

/-- What the device does on a pin: nothing until VCORE is in range (R442), what boundary scan says while EXTEST has the pins
(R476), and else what its unit does. The wake line is open-drain (R323). -/
def drive (s : State) (p : Pin) : Drive :=
  if !s.power.vcoreIn then .highZ
  else if s.power.tap == .extest && p.drives then
    let b := s.power.scan.testBit p.place
    match p with
    | .wake _ => if b then .highZ else .level false
    | _ => .level b
  else s.unitDrive p

/-- A cell does not reach its pins while EXTEST has them (R476). -/
def pinsTaken (s : State) : Bool := s.power.tap == .extest

/-! ### The test access port (R467) -/

/-- What the boundary-scan register captures: the level of each pin that the device drives, and of the others what stands
on them, which is open (log entry 118). -/
def capturePins (outside : Nat) (s : State) : Nat :=
  (((List.range Pin.all.length).zip Pin.all).map fun e =>
    (b2n (match s.drive e.2 with | .level b => b | _ => outside.testBit e.1)) * 2 ^ e.1).foldl (· + ·) 0

/-- An instruction is selected, and its data register captures `data`; leaving EXTEST gives the pins back. -/
def selectTap (i : TapInstr) (data : Nat) (s : State) : State := s.modPower fun p => { p with tap := i, tapData := data }

/-- The boundary-scan register captures the pins. -/
def scanPins (i : TapInstr) (s : State) : State :=
  let (v, s) := s.draw
  s.selectTap i (s.capturePins v)

end State

/-- TAP_BYPASS (R467): the bypass register captures 0 (IEEE 1149.1; log entry 30). -/
def execTapBypass (s : State) : Outcome := .next (s.selectTap .bypass 0)

/-- TAP_SAMPLE_PRELOAD (R467): the boundary-scan register captures the pins, and takes what the tester shifts in, which the
command does not carry (log entry 118). -/
def execTapSamplePreload (s : State) : Outcome :=
  let (v, s) := (s.scanPins .samplePreload).draw
  .next (s.modPower fun p => { p with scan := v })

/-- TAP_EXTEST (R467, R476): boundary scan takes the pins. -/
def execTapExtest (s : State) : Outcome :=
  .next ((s.scanPins .extest).modPower fun p => { p with pinsLost := p.pinsLost || p.phase == .ready })

/-- TAP_IDCODE (R467): stepping B0 reads 0x1961_2DCB. -/
def execTapIdcode (s : State) : Outcome := .next (s.selectTap .idcode 0x19612DCB)

/-- TAP_RESET (R448): the test access port resets, the device does not; IDCODE is then selected (IEEE 1149.1; log
entry 30). -/
def execTapReset (s : State) : Outcome := .next (s.selectTap .idcode 0x19612DCB)

end Sys2Proof.Machine
end

