-- ==== Sys2Proof/Machine/Power.lean ====
section
/-! DEFINITION. Resets, start-up and telemetry (chapter 17). -/

namespace Sys2Proof.Machine

/-- A 12-bit reading as a signed number (Table 17-10d). -/
def signed12 (v : Nat) : Int := if v < 2048 then (v : Int) else (v : Int) - 4096

namespace State

/-! ### Resets (R447, Table 17-3) -/

/-- What every reset leaves: the reset contents of the device, with the OTP records, the live list that they fill, the
test access port, the supplies, and what SYS_RSTCAUSE keeps (R447, R448, R366). A record whose programming the reset cuts short is
invalid (Table 17-9). -/
def resetTo (s : State) : State :=
  let otp := s.wear.otp ++ (if s.wear.programming.isSome then [none] else [])
  let live := otp.filterMap id
  let r : State :=
    { State.reset with
      pending := s.pending, free := s.free
      wear := { otp := otp, live := live }
      power := { vcoreIn := s.power.vcoreIn, tap := s.power.tap, tapData := s.power.tapData, scan := s.power.scan } }
  (r.wr F.SP_LEDGER.LIVE live.length).wr F.SP_LEDGER.OTP otp.length

/-- The bits of SYS_RSTCAUSE that some resets keep. -/
def causeBits : List Field :=
  [F.SYS_RSTCAUSE.POR, F.SYS_RSTCAUSE.BROWNOUT, F.SYS_RSTCAUSE.PIN, F.SYS_RSTCAUSE.CLOCK, F.SYS_RSTCAUSE.THERMAL,
   F.SYS_RSTCAUSE.QUICK, F.SYS_RSTCAUSE.STFAIL, F.SYS_RSTCAUSE.STROWS]

/-- A reset that clears SYS_RSTCAUSE but for its own bit. -/
def coldReset (f : Field) (s : State) : State := (each causeBits (fun f s => s.wr f 0) s.resetTo).wr f 1

/-- A reset that keeps the other bits of SYS_RSTCAUSE. -/
def warmReset (f : Field) (s : State) : State := (each causeBits (fun g r => r.wr g (s.rd g)) s.resetTo).wr f 1

/-! ### Start-up (R450, R369) -/

/-- The RAM of a row record (Table 13-6). -/
def ramOf (r : WearRec) : Option RamId :=
  if r.kind = 3 then (if h : r.unit % 16 < 12 then some (.block ⟨r.unit % 16, h⟩) else none)
  else if r.kind = 4 then
    match r.unit % 16 with
    | 1 => some .captured | 2 => some .emit | 3 => some .knot | 4 => some .scale | 5 => some .queue | 6 => some .patch
    | _ => none
  else none

/-- Step 3: the row repairs of the live list. -/
def applyRows (s : State) : State :=
  each s.wear.live (fun r s =>
    match ramOf r with
    | some m => s.useSpare m r.row (r.unit / 128)
    | none => s) s

/-- A row goes into a free spare row, or stays in use with STFAIL (R450, R452). -/
def spareFor (ram : RamId) (row : Nat) (s : State) : State :=
  let k := ramKind ram
  match s.spareRow ram with
  | none => (s.wr F.SYS_RSTCAUSE.STFAIL 1).wearEvent 0x08 k.1 k.2 1 0x3F []
  | some sp =>
    let s := ((s.useSpare ram row sp).bump F.SYS_RSTCAUSE.STROWS).enterLedger k.1 (sp * 2 ^ 7 + k.2) 1 row sp
    s.wearEvent 0x08 k.1 (sp * 2 ^ 7 + k.2) 1 sp []

/-- The row whose address maps to a physical row that fails the self-test, if any. Rows from the RAM's row count on stand
for its spare rows; a row that the live list has retired is out of use (log entry 121). -/
def rowUsing (s : State) (ram : RamId) (row : Nat) : Option Nat :=
  let n := ramRows ram
  if row < n then if s.wear.retired.any fun x => x.ram == ram && x.row == row then none else some row
  else (s.wear.retired.find? fun x => x.ram == ram && x.spare == row - n && x.row < n).map (·.row)

/-- Step 5: a row that fails the self-test is retired; a failing spare row is not used (R450). -/
def failRow (ram : RamId) (row : Nat) (s : State) : State :=
  match s.rowUsing ram row with
  | some r => s.spareFor ram r
  | none =>
    onlyIf (ramRows ram ≤ row) (·.modWear fun w => { w with retired := w.retired ++ [⟨ram, row, row - ramRows ram⟩] }) s

/-- Step 5: which spare rows fail is known before a row goes into one (R450). -/
def failRows (failing : List (RamId × Nat)) (s : State) : State :=
  let spare (e : RamId × Nat) : Bool := ramRows e.1 ≤ e.2
  let used (e : RamId × Nat) : Bool := (s.rowUsing e.1 e.2).isSome
  each (failing.filter (fun e => spare e && !used e) ++ failing.filter (fun e => spare e && used e) ++
    failing.filter (!spare ·)) (fun e s => s.failRow e.1 e.2) s

/-- Step 6: the unit retirements of the live list (R343, R369), each with the event of its failure; every conflict writes
event 0x0C, and the second retired cell of a block stays isolated (R349). A tether lane is replaced at link-up. -/
def applyUnits (s : State) : State :=
  let units (k : Nat) : List Nat := ((s.wear.live.filter fun r => r.kind == k).map (·.unit)).eraseDups
  let cells := units 0
  let s := each (List.range 108) (fun c s =>
    if !cells.contains c then s
    else
      let b := c / 9
      let s := (s.wr (failedField c) 1).wr (causeField c) 6
      let free := c % 9 != 8 && !cells.contains (mirror b) && (s.mirrorServes b).isNone
      let s := s.wearEvent 0x01 0 c 6 (if free then 8 else 0x3F) []
      if c % 9 = 8 then s
      else if !free then
        ((s.wearEvent 0x0C 0 c 6 0x3F []).modCell c fun C => { C with isolated := true }).markUnserved (8 * b + c % 9) c 6
      else (s.wr (slotField b (c % 9)) 8).wr (F.BK_PINMUX.MLISTEN b) 8) s
  let s := each (List.range 9) (fun e s =>
    if !(units 1).contains e then s
    else
      let s := s.wr F.SP_ENGINE.FAILED (s.rd F.SP_ENGINE.FAILED + 2 ^ e)
      let s := s.modWear fun w => { w with cause := Sparse.put 0 w.cause (0x1000 + e) 6 }
      let free := e != 8 && s.rd F.SP_ENGINE.SPARELANE == 0xF && !(units 1).contains 8
      let s := s.wearEvent 0x01 1 e 6 (if free then 8 else 0x3F) []
      if e = 8 then s
      else if free then s.wr F.SP_ENGINE.SPARELANE e
      else s.wearEvent 0x0C 1 e 6 0x3F []) s
  let s := each (List.range 3) (fun l s =>
    if !(units 2).contains l then s
    else
      let s := (s.wr F.SP_LANE.FAILED (s.rd F.SP_LANE.FAILED + 2 ^ l)).modWear fun w =>
        { w with cause := Sparse.put 0 w.cause (0x2000 + l) 6 }
      let spare := (List.range 3).find? fun p => !(units 2).contains p && !s.laneInUse p
      s.wearEvent 0x0A 2 l 6 (if s.laneInUse l then spare.getD 0x3F else 0x3F) []) s
  s.refreshNolane

/-- READY (R450, R451, R41, R320): the boundary of tick 0. -/
def becomeReady (lockUs : Nat) (failing : List (RamId × Nat)) (s : State) : State :=
  let quick := s.rd F.SYS_STRAP.BOOTSEL = 1
  let start := if s.flag F.SYS_STRAP.PORTSTART then 1 else 4
  let s := { s with power := { s.power with phase := .ready }, tick := {} }
  let s := ((s.wr F.SYS_RSTCAUSE.STROWS 0).wr F.SYS_RSTCAUSE.STFAIL 0).wr F.SYS_RSTCAUSE.QUICK (b2n quick)
  let s := (s.wr F.SYS_PLLSTAT.LOCKUS lockUs).wr F.SYS_PWRDOM.ON (if start = 1 then 0xFFF else 0)
  let s := each (List.range 96) (fun n s => s.setPortState n start) s
  let s := s.wr F.TK_STATUS.PHASE 0
  let t := (s.applyRows.failRows failing).applyUnits
  -- event 0x01 goes before the events of steps 5 and 6
  let s := { t with merger := s.merger }
  let s := (s.post 0x0E 0x01 0 [pack ((List.range causeBits.length).zip causeBits |>.filter (·.1 < 7) |>.map fun e =>
    (s.rd e.2, e.1)), s.rd F.SYS_RSTCAUSE.STROWS, s.rd F.SYS_PLLSTAT.LOCKUS]).pushRecord
  let s := { s with merger := { s.merger with posted := s.merger.posted ++ t.merger.posted } }
  let s := onlyIf (s.flag F.SYS_RSTCAUSE.STFAIL) raiseChip s
  let s := s.refreshMapstat
  each (List.range 12) moveRotation s

/-! ### Telemetry (R453 to R456) -/

/-- The reading of a temperature sensor. -/
def temp (s : State) (i : Nat) : Int := signed12 (s.rd (F.SYS_TEMP.TEMP i))

/-- A value for one telemetry item (Table 17-8). -/
def telemetryItem (s : State) (i : Nat) : Nat :=
  if i < 4 then modBits 18 (s.temp i)
  else if i = 4 then s.rd F.SYS_VMON.VCORE
  else if i = 5 then s.rd F.SYS_VMON.VSD
  else if i = 6 then s.rd F.SYS_VMON.VAUX
  else if 0x10 ≤ i && i < 0x70 then s.rd (F.SYS_BUSLOAD.LOAD (i - 0x10))
  else 0

/-- Twice the median of four readings. -/
def median2 (l : List Int) : Int := l.foldl (· + ·) 0 - l.foldl max (-4096) - l.foldl min 4096

/-- The last reading of a temperature sensor, and its peak: the first reading of a start-up is its highest (Table 17-10d). -/
def readTemperature (i v : Nat) (s : State) : State :=
  let s := s.wr (F.SYS_TEMP.TEMP i) v
  onlyIf (!s.power.sensed || decide (signed12 (s.rd (F.SYS_TEMP.PEAK i)) < signed12 v)) (peak (F.SYS_TEMP.PEAK i) v) s

/-- The readings of the four temperature sensors. -/
def readTemperatures (readings : List Nat) (s : State) : State :=
  (each ((List.range 4).zip readings) (fun e s => s.readTemperature e.1 e.2) s).modPower fun p => { p with sensed := true }

/-- A reading differs from the median of the four by more than 15 °C: its sensor is excluded (R454). -/
def excludes (readings : List Nat) (t : Int) : Bool :=
  let m := median2 (readings.map signed12)
  240 < 2 * t - m || 2 * t - m < -240

/-- A sensor that is not excluded reads 135 °C or more: the device trips (R447, R454). -/
def trips (readings : List Nat) : Bool := (readings.map signed12).any fun t => !excludes readings t && 1080 ≤ t

/-- The last readings of the supply monitors (Table 17-10e). -/
def readVoltages (vcore vsd vaux : Nat) (s : State) : State :=
  ((s.wr F.SYS_VMON.VCORE vcore).wr F.SYS_VMON.VSD vsd).wr F.SYS_VMON.VAUX vaux

/-- A sample of the four temperature sensors (R453, R454). -/
def sampleTemperature (readings : List Nat) (s : State) : State :=
  let ts := readings.map signed12
  let out := excludes readings
  let s := each ((List.range 4).zip ts) (fun e s =>
    let was := s.flag (F.SYS_TEMP.EXCL e.1)
    let s := s.wr (F.SYS_TEMP.EXCL e.1) (b2n (out e.2))
    onlyIf (out e.2 && !was) (fun s => s.raisePwr.post 0x0E 0x06 e.1 [e.1, modBits 18 e.2]) s) (s.readTemperatures readings)
  let lim : Int := 8 * (s.rd F.SYS_TELCFG.TWARN : Int)
  let valid := ((List.range 4).zip ts).filter fun e => !out e.2
  if !valid.any fun e => lim - 40 ≤ e.2 then s.modPower fun p => { p with warned := false }
  else
    match valid.find? fun e => lim ≤ e.2 with
    | some e =>
      if s.power.warned then s
      else (s.modPower fun p => { p with warned := true }).raisePwr.post 0x0E 0x02 e.1 [e.1, modBits 18 e.2]
    | none => s

/-- A sample of one supply monitor with its warning window (R454). -/
def sampleMonitor (i v lo hi : Nat) (s : State) : State :=
  let st := Sparse.get 0 s.power.outside i
  let inside := lo ≤ v && v ≤ hi
  let set (x : Nat) (s : State) : State := s.modPower fun p => { p with outside := Sparse.put 0 p.outside i x }
  if inside then set (if st = 1 then 2 else 0) s
  else if st = 0 then ((set 1 s).raisePwr).post 0x0E 0x03 i [i, v]
  else set 1 s

/-- The telemetry packet of Table 17-7 is due in HOUSE of this tick (R455). -/
def telemetryDue (s : State) : Bool :=
  let p := s.rd F.SYS_TELCFG.PERIOD
  p != 0 && s.tickNo % p == 0 && s.phase == 3

/-- Pushes the telemetry packet, or drops it (R455). -/
def pushTelemetry (s : State) : State :=
  let body := words 2 s.tickNo ++ (List.range 7).map s.telemetryItem ++ (List.range 96).map fun n => s.telemetryItem (0x10 + n)
  let ws := pack [(1, 12), (body.length, 0)] :: body
  let drop (s : State) : State := (s.bump F.SYS_TELCFG.DROP).post 0x0E 0x05 0 (words 2 s.tickNo)
  match s.boundQueue 5 with
  | some q => if ws.length ≤ s.room q then s.pushBulk q ws else drop s
  | none => drop s

end State

/-! ### The commands -/

/-- POWER_ON_RESET (R442, Table 17-3): the supplies ramp up, and VCORE is in range by the release. -/
def execPowerOnReset (s : State) : Outcome :=
  .next ((s.modPower fun p => { p with vcoreIn := false }).coldReset F.SYS_RSTCAUSE.POR)

/-- BROWNOUT (R442, Table 17-3). Which supply fell, and so whether VCORE is in range, the command does not say (log entry
118). -/
def execBrownout (s : State) : Outcome :=
  let (v, s) := s.draw
  .next ((s.modPower fun p => { p with vcoreIn := p.vcoreIn && v % 2 == 1 }).coldReset F.SYS_RSTCAUSE.BROWNOUT)

/-- PIN_RESET (Table 17-3). -/
def execPinReset (s : State) : Outcome := .next (s.warmReset F.SYS_RSTCAUSE.PIN)

/-- CLOCK_FAULT_RESET (R446, Table 17-3). -/
def execClockFaultReset (s : State) : Outcome := .next (s.warmReset F.SYS_RSTCAUSE.CLOCK)

/-- THERMAL_RESET (Table 17-3): the thermal trip. It also follows a sample of R453 that reaches it (TEMPERATURE_SAMPLE). -/
def execThermalReset (s : State) : Outcome := .next (s.warmReset F.SYS_RSTCAUSE.THERMAL)

/-- RESET_RELEASE (R449, Table 17-5): the device samples the straps and starts up. -/
def execResetRelease (senior portStart : Bool) (bootsel : BitVec 2) (s : State) : Outcome :=
  .next (
    if s.power.phase ≠ .inReset then s
    else
      let s := ((s.wr F.SYS_STRAP.SENIOR (b2n senior)).wr F.SYS_STRAP.PORTSTART (b2n portStart)).wr F.SYS_STRAP.BOOTSEL
        bootsel.toNat
      (s.wr F.SP_PSTAT.SENIOR (b2n senior)).modPower fun p =>
        { p with vcoreIn := true, phase := if bootsel = 3 then .boardTest else .starting })

/-- MAIN_PLL_LOCK_TIMEOUT (R451): the PLL restarts, and the device goes on without READY. -/
def execMainPllLockTimeout (s : State) : Outcome :=
  .next (if s.power.phase = .starting then s.modPower fun p => { p with pllRestarts := p.pllRestarts + 1 } else s)

/-- READY (R450). `failing`: the rows that the RAM self-test found. -/
def execReady (lockUs : BitVec 15) (failing : List (RamId × Nat)) (s : State) : Outcome :=
  .next (if s.power.phase = .starting then s.becomeReady lockUs.toNat failing else s)

/-- A sample of telemetry. The first readings are valid at READY, so that one taken in the start-up leaves its readings;
the conditions of R454 are judged from READY on (R453; log entry 103). -/
def sampled (s : State) (first samples : State → State) : Outcome :=
  .next (match s.power.phase with
    | .ready => samples s
    | .starting => first s
    | .inReset | .boardTest => s)

/-- TEMPERATURE_SAMPLE (R453, R454); a reading that trips resets the device (R447). -/
def execTemperatureSample (t0 t1 t2 t3 : BitVec 12) (s : State) : Outcome :=
  let l := [t0.toNat, t1.toNat, t2.toNat, t3.toNat]
  sampled s (·.readTemperatures l) fun s =>
    if State.trips l then s.warmReset F.SYS_RSTCAUSE.THERMAL else s.sampleTemperature l

/-- VOLTAGE_SAMPLE (R453, R454). An absent VSD concerns only the tether, so that its monitor reports nothing of a reading of
0 mV (R442; log entry 118). Whether VCORE is in range shows in every phase. -/
def execVoltageSample (vcore vsd vaux : BitVec 12) (s : State) : Outcome :=
  let s := s.modPower fun p => { p with vcoreIn := decide (825 ≤ vcore.toNat) && decide (vcore.toNat ≤ 875) }
  sampled s (·.readVoltages vcore.toNat vsd.toNat vaux.toNat) fun s =>
    let s := (s.readVoltages vcore.toNat vsd.toNat vaux.toNat).sampleMonitor 0 vcore.toNat 816 884
    (onlyIf (vsd.toNat != 0) (·.sampleMonitor 1 vsd.toNat 940 1060) s).sampleMonitor 2 vaux.toNat 1690 1910

/-- TELEMETRY_PACKET (R455): once in HOUSE of a tick whose number is a multiple of PERIOD. -/
def execTelemetryPacket (s : State) : Outcome :=
  ready s fun s =>
    if !s.telemetryDue || 0xE050000 ∈ s.once then s else { s with once := 0xE050000 :: s.once }.pushTelemetry

end Sys2Proof.Machine
end

