-- ==== Sys2Proof/Machine/HostPort.lean ====
section
/-! DEFINITION. The host port (chapter 15): reads and writes of the 2^20 dwords of the address map (chapter 16), with
the access codes of R11 and the discarded and void accesses of R426. -/

namespace Sys2Proof.Machine
namespace State

/-! ### What a read finds -/

/-- The queue and register offset of a queue register address (Table 8-9). -/
def queueAt (a : Nat) : Option (Nat × Nat) :=
  if 0x2000 ≤ a && a < 0x2018 then some (0x210 + (a - 0x2000) / 8, a % 8)
  else if 0x3000 ≤ a && a < 0x3020 then some (0x200 + (a - 0x3000) / 8, a % 8)
  else if 0x1E000 ≤ a && a < 0x1EC00 then
    let o := a % 0x100
    if 0x28 ≤ o && o < 0x100 then some (4 * ((a - 0x1E000) / 0x100 * 9 + (o - 0x28) / 0x18) + (o - 0x28) % 0x18 / 8, o % 8)
    else none
  else none

/-- Fields of a queue register that show the queue itself (R236, Tables 8-10e, 8-10g, 8-10h). -/
def queueView (s : State) (q o lo : Nat) : Option Nat :=
  if o = 5 && lo = 16 then some (s.credit q)
  else if o = 5 && lo = 0 then some (s.queue q).vis.length
  else if o = 7 && lo = 0 then some (if 0x210 ≤ q then (s.queue q).packets else 0)
  else if o = 3 && lo = 13 && 0x200 ≤ q then some (b2n (s.queueOn q))
  else if o = 3 && lo = 0 && 0x200 ≤ q then some 0
  else if o = 3 && lo = 14 && !isBulk q then some 0
  else none

/-- Fields of a cell page that show what the cell is doing (Tables 6-9a, 7-10b, 7-10c; R118). -/
def cellView (s : State) (c o lo : Nat) : Option Nat :=
  let C := s.cell c
  let P := match s.servedPort c with | some n => s.port n | none => {}
  let buf (f : TxFrame) : Option Nat := match f.src with | .buffer d => some d | _ => none
  if o = 0 then
    if lo = 16 then some (b2n (P.susp != []))
    else if lo = 13 then some (b2n C.attempt.isSome)
    else if lo = 12 then some (b2n (C.rxSof.isSome && C.attempt.isNone))
    else if lo = 10 then some P.busTest
    else if lo = 9 then some P.busProto
    else none
  else if 0x12 ≤ o && o ≤ 0x14 then
    if P.busProto = 1 then some (if lo = 0 && o != 0x13 then 0x3FF else 0) else none
  else if o = 0x51 then
    if lo = 20 then some ((C.ready.bind buf).getD 0)
    else if lo = 19 then some (b2n C.ready.isSome)
    else if lo = 12 then some ((C.attempt.bind fun a => buf a.frame).getD 0)
    else if lo = 11 then some (b2n (C.attempt.bind fun a => buf a.frame).isSome)
    else if lo = 0 then some P.pend.length
    else none
  else if 0x52 ≤ o && o < 0x56 then
    some (((P.pend.filter fun d => d / 32 == o - 0x52).map fun d => 2 ^ (d % 32)).foldl (· + ·) 0)
  else none

/-- Fields of a splice window that show its state (R313, Table 11-7d). -/
def windowView (s : State) (w o lo : Nat) : Option Nat :=
  let lease : Option Nat := s.ports.findSome? fun e => match e.2.lock with
    | some (_, v, some t) => if v = w then some t else none
    | _ => none
  if o = 4 && lo = 12 then some (b2n lease.isSome)
  else if o = 4 && lo = 0 then some (match lease with
    | some t => (t - s.clk + msClk - 1) / msClk
    | none => 0)
  else if o = 5 && lo = 30 then some (b2n (s.window w).runOpen.isSome)
  else if o = 5 && lo = 24 then some (s.window w).buf.length
  else none

/-- The value of a field that stands for other state, if it is one. -/
def computedView (s : State) (a lo : Nat) : Option Nat :=
  if a = 0x801 && lo = 0 then some s.gateway.collecting.length
  else if a = 0x100A then some (s.now % 2 ^ 36)
  else if a = 0x2019 && lo = 8 then some s.engine.handoffs.length
  else if a = 0x201C then
    some (s.engine.ledger.filter fun e => (e.2.state == 2) == (lo == 0)).length
  else if a = 0x3102 then some (if lo = 4 then s.irqRaw else s.irqPend)
  else if a = 0x80803 then some (if lo = 8 then s.bridge.inbound.length else s.bridge.txns.length)
  else if 0x80000 ≤ a && a < 0x80080 then s.windowView ((a - 0x80000) / 8) (a % 8) lo
  else if 0x10000 ≤ a && a < 0x1D800 then s.cellView ((a - 0x10000) / 0x200) (a % 0x200) lo
  else match queueAt a with
    | some (q, o) => s.queueView q o lo
    | none => none

/-- The field that governs a field of a cell page: an st field is the port's (R437); none where the cell serves no port
or is isolated. -/
def pageField (s : State) (c : Nat) (f : Field) : Option Field :=
  if f.acc == .st then
    if (s.cell c).isolated then none
    else (s.servedPort c).map fun n => { f with addr := f.addr + home n * 0x200 - c * 0x200 }
  else some f

/-- What the host reads in a field (R11): an st field reads its staging copy, and an rc field as it stood before the present
clk (R12). -/
def fieldView (s : State) (f : Field) : Nat :=
  match s.computedView f.addr f.lo with
  | some v => v % f.size
  | none => match f.acc with
    | .st => s.staged f
    | .wo => 0
    | .rc => match s.recordedNow f with | some (before, _) => before | none => s.rd f
    | _ => s.rd f

/-- The value of a register. -/
def regView (s : State) (r : Reg) : Nat := pack (r.map fun f => (s.fieldView f, f.lo))

/-- The value of a register of a cell page. -/
def cellRegView (s : State) (c : Nat) (r : Reg) : Nat :=
  pack (r.map fun f => (match s.pageField c f with | some g => (s.counted c).fieldView g | none => 0, f.lo))

/-- Two words as a dword. -/
def pairView (lo hi : Nat) : Nat := lo % 2 ^ 18 + 2 ^ 18 * (hi % 2 ^ 18)

/-- Dword `i` of an entry of words. -/
def entryView (l : List Nat) (i : Nat) : Nat := pairView (l.getD (2 * i) 0) (l.getD (2 * i + 1) 0)

/-- The entry of buffer or filter `i` of port `n` whose rewrite in block RAM is still to come (R179, R184). -/
def rewriteOf (s : State) (n i : Nat) (filter : Bool) : Option Rewrite :=
  s.rewrites.find? fun r => r.filter == filter && r.port == n && r.item == i && s.clk < r.due

/-- A word of a block RAM window (R174, R177): the tables hold the live descriptors and filters. Until its rewrite an entry
reads as it stood before, and so does the status pair of a buffer (R179, R184). -/
def ramView (s : State) (b w : Nat) : Nat :=
  if w < 0x1000 then
    let n := 8 * b + w / 0x200
    let d := w % 0x200 / 4
    match s.rewriteOf n d false with
    | some r => Sparse.get 0 r.old (descKey n d (w % 4))
    | none => s.rdK (descKey n d (w % 4))
  else if w < 0x1C00 then
    let n := 8 * b + (w - 0x1000) / 0x180
    let f := (w - 0x1000) % 0x180 / 6
    let k := filtKey n f ((w - 0x1000) % 0x180 % 6)
    match s.rewriteOf n f true with
    | some r => Sparse.get 0 r.old k
    | none => s.rdK k
  else
    match (if w < 0x2400 then s.rewriteOf (8 * b + (w - 0x1C00) / 0x100) (w % 0x100 / 2) false else none) with
    | some r => if w % 2 = 0 then r.status.1 else r.status.2
    | none => (s.ram b w).toNat

/-- The wear ledger record as the host reads it (Table 13-6). -/
def wearWords (r : WearRec) : List Nat :=
  [pack [(1, 17), (b2n r.otp, 16), (r.kind, 12), (r.unit, 0)], pack [(r.cause, 15), (r.row, 0)]] ++ words 2 r.tick

/-- A window word, or a register: the dword that a read returns, but for queue ports and queue areas. -/
def targetView (s : State) : Target → Nat
  | .reg r | .blockReg _ r => s.regView r
  | .cellReg c r => s.cellRegView c r
  | .blockRam b i => pairView (s.ramView b (2 * i)) (s.ramView b (2 * i + 1))
  | .captured i => pairView (s.capWord (2 * i)).toNat (s.capWord (2 * i + 1)).toNat
  | .emit i => pairView (s.emitNow (2 * i)) (s.emitNow (2 * i + 1))
  | .knot i => pairView (s.knotWord (i / 2) (2 * (i % 2))).toNat (s.knotWord (i / 2) (2 * (i % 2) + 1)).toNat
  | .scale i =>
    if i % 2 = 0 then pairView (s.scaleWord (i / 2) 0).toNat (s.scaleWord (i / 2) 1).toNat else (s.scaleWord (i / 2) 2).toNat
  | .binding i => pairView (s.rdK (bindKey (i / 6) (2 * (i % 6)))) (s.rdK (bindKey (i / 6) (2 * (i % 6) + 1)))
  | .policy i => pairView (s.rdK (policyKey (i / 3) (2 * (i % 3)))) (s.rdK (policyKey (i / 3) (2 * (i % 3) + 1)))
  | .journal i => entryView (Sparse.get [] s.engine.journal (i / 4)) (i % 4)
  | .dpLog i => entryView (Sparse.get [] s.bridge.dpLog (i / 4)) (i % 4)
  | .leLog i => entryView (Sparse.get [] s.bridge.leLog (i / 4)) (i % 4)
  | .ledgerWin i => match s.wear.live[i / 2]? with | some r => entryView (wearWords r) (i % 2) | none => 0
  | .wakeLog i => entryView (Sparse.get [] s.wakeLog (i / 4)) (i % 4)
  | .kaLog i => entryView (Sparse.get [] s.kaLog (i / 4)) (i % 4)
  | .prefetch w j =>
    let at' (i : Nat) : Nat := match (s.window w).buf[i]? with | some x => x.1.toNat | none => 0
    pairView (at' (2 * j)) (at' (2 * j + 1))
  | _ => 0

/-! ### Effects of accesses -/

/-- The RAM and the words that a dword of a window stands in, low word first. -/
def ramWords : Target → Option (RamId × Nat × Nat)
  | .blockRam b i => if h : b < 12 then some (.block ⟨b, h⟩, 2 * i, 2 * i + 1) else none
  | .captured i => some (.captured, 2 * i, 2 * i + 1)
  | .emit i => some (.emit, 2 * i, 2 * i + 1)
  | .knot i => some (.knot, 2 * i, 2 * i + 1)
  | .scale i => if i % 2 = 0 then some (.scale, i / 2 * 3, i / 2 * 3 + 1) else some (.scale, i / 2 * 3 + 2, 12288)
  | _ => none

/-- The block whose power domain an access needs (R31). -/
def pageBlock : Target → Option Nat
  | .cellReg c _ | .offCell c => some (c / 9)
  | .blockReg b _ | .offBlock b | .blockRam b _ => some b
  | .qData q | .qPush2 q => if q < 0x1B0 then some (q / 36) else none
  | _ => none

/-- The words of the body of a host port event (Table 15-10). -/
def hostBody (s : State) (cause a : Nat) (read : Bool) : List Nat :=
  [pack [(cause, 14), (b2n read, 13), (bitsOf a 19 18, 0)], bitsOf a 17 0] ++ words 2 s.tickNo

/-- An access of Table 15-6 is counted, captured and reported (R424, R427). -/
def discard (cause a : Nat) (read : Bool) (s : State) : State :=
  let s := ((s.wr F.HP_DISCAP.CAUSE cause).wr F.HP_DISCAP.RD (b2n read)).wr F.HP_DISCAP.ADDR a
  if cause = 1 then (s.bump F.HP_ERR.PARERR).postOnce 0xF010000 0x0F 0x01 0 (s.hostBody 1 a false)
  else (s.bump (if read then F.HP_ERR.VOID else F.HP_ERR.DISC)).postOnce (0xF020000 + cause) 0x0F 0x02 0 (s.hostBody cause a read)

/-- Odd parity of a word (R423). -/
def oddParity (w : Word) : Bool := (bitsMsb 18 w.toNat).foldl (fun p b => p != b) true

/-- The read result stands in the output register; the parity of an uncorrectable word is inverted under POISON. -/
def present (v words : Nat) (s : State) : State :=
  let d : Dword := BitVec.ofNat 36 v
  let bad (i : Nat) : Bool := words.testBit i && s.flag F.HP_CTRL.POISON
  { s with hostOut := d, hostPar := BitVec.ofNat 2 (pack [(b2n (oddParity d.lo != bad 0), 0), (b2n (oddParity d.hi != bad 1), 1)]) }

/-- A read returns uncorrectable words (R425, R360). -/
def readBad (a words : Nat) (t : Target) (s : State) : State :=
  if words % 4 = 0 then s
  else
    let s := ((s.bump F.HP_ERR.UNCORR).wr F.HP_UCAP.WORDS words).wr F.HP_UCAP.ADDR a
    let s := s.postOnce 0xF030000 0x0F 0x03 0 (s.hostBody 0 a true ++ [words % 4])
    match ramWords t with
    | none => s
    | some (r, lo, hi) =>
      let s := onlyIf (words.testBit 0) (uncorrectableWord r lo) s
      onlyIf (words.testBit 1 && hi < 64 * ramRows r) (uncorrectableWord r hi) s

/-- What a read leaves in an rc field: what the device has recorded in this clk, else 0 (R11, R12). SYS_TEMP.PEAK loads the
present reading (Table 17-10d). -/
def afterRead (s : State) (f : Field) : Nat :=
  if 0x90801 ≤ f.addr && f.addr < 0x90805 then s.rd (F.SYS_TEMP.TEMP (f.addr - 0x90801))
  else match s.recordedNow f with
    | some (_, n) => min n (f.size - 1)
    | none => f.reset

/-- A read clears the rc fields of a register (R11, R12). -/
def readClear (r : Reg) (s : State) : State := each (r.filter (·.acc == .rc)) (fun f s => s.wr f (s.afterRead f)) s

/-- The dword that a pop returns (R236, Table 8-10a): END shows in the command, reply and event queues only. -/
def popDword (q : Nat) (w : QWord) (corr uncorr : Bool) : Nat :=
  pack [(b2n uncorr, 21), (b2n corr, 20), (b2n (w.last && 0x210 ≤ q), 18), (w.word.toNat, 0)]

/-- The RAM that holds a queue, and the first word of the queue's area in it where the spec places it (R216). -/
def queueRam (s : State) (q : Nat) : RamId × Nat :=
  if h : q < 0x1B0 then (.block ⟨q / 36, by omega⟩, 4 * s.rd (F.QCFG.BASE q)) else (.queue, 0)

/-- Where a word of a queue that shows an error stands: its RAM, its word there, and its position in the queue's area. Which
word that is is open, unless a reader found it uncorrectable before (log entry 4). -/
def queueWordAt (q : Nat) (w : QWord) (s : State) : (RamId × Nat × Nat) × State :=
  let r := s.queueRam q
  match w.bad with
  | some key => ((r.1, key % 262144, (key % 262144 - r.2) % queueCap q), s)
  | none =>
    let (v, s) := s.draw
    ((r.1, if q < 0x1B0 then r.2 + v % queueCap q else v % (64 * ramRows r.1), v % queueCap q), s)

/-- The host pops a queue (R226, R213, R230, R360). `found`: what the pop finds of the word's check bits. -/
def hostPop (a q : Nat) (found : EccFinding) (s : State) : State :=
  let idle := 2 ^ 19 + Config.idleItem
  if !s.hostConsumes q then s.present idle 0
  else match s.popWord q with
    | none => s.present idle 0
    | some (w, s) =>
      if w.bad.isSome || found = .uncorrectable then
        let ((ram, i, pos), s) := s.queueWordAt q w
        (((s.readBad a 1 (.qData q)).queueEvent q 0x04 0 [pos]).uncorrectableWord ram i).present (popDword q w false true) 1
      else if found = .corrected then
        let ((ram, i, _), s) := s.queueWordAt q w
        ((s.bump (F.QMON.CORR q)).correctedWord ram i).present (popDword q w true false) 0
      else s.present (popDword q w false false) 0

/-- A host read of dword `a` (R418, R421, R436). `found`: the words that the read finds uncorrectable beside those known;
`pop`: what a pop finds. -/
def readReady (a found : Nat) (pop : EccFinding) (s : State) : State :=
  let t := targetOf a
  match t with
  | .unmapped => (s.discard 7 a true).present 0 0
  | _ =>
    let off : Bool := match pageBlock t with | some b => !s.blockOn b | none => false
    if off then (s.discard 3 a true).present 0 0
    else match t with
      | .qData q => if queueExists q then s.hostPop a q (if found.testBit 0 then .uncorrectable else pop) else s.present 0 0
      | .reg r | .blockReg _ r | .cellReg _ r =>
        let v := s.targetView t
        let s := onlyIf (a == 0x100A) (fun s => s.wr F.TK_TIME_HI.TIME_HI (s.now / 2 ^ 36)) s
        (s.readClear r).present v 0
      | _ =>
        let known : Nat := match ramWords t with
          | some (r, lo, hi) => b2n (s.isBad r lo) + 2 * b2n (hi < 64 * ramRows r && s.isBad r hi)
          | none => 0
        let ws := if (ramWords t).isSome then known ||| (found % 4) else 0
        let area : Bool := match t with
          | .blockRam b i => 0x1200 ≤ i && (s.queueAtRam b (2 * i)).isSome
          | _ => false
        -- which item of a queue stands in which word of its area is open (log entry 4)
        let (v, s) := if area then s.draw else (s.targetView t, s)
        (s.readBad a ws t).present v ws

/-- The host port answers only the identification page from the release of a reset until READY (R428, R439). -/
def readStarting (a : Nat) (s : State) : State :=
  if a = 0xF0000 || a = 0xF0001 then s.present (s.targetView (targetOf a)) 0 else s.present 0 0

/-! ### The presentation clk (R418 to R420) -/

/-- The host port makes accesses now: the device is READY and boundary scan does not have the pins (R428, R476). -/
def hostOn (s : State) : Bool := s.power.phase == .ready && !s.pinsTaken

/-- Clk pass until bit 0 of device time is 0, in a clk later than that of the last access: two at most (R419, R420). -/
def seekSlot : Nat → State → State
  | 0, s => s
  | k + 1, s => if s.tick.time % 2 = 1 || s.hostClk == some s.clk then seekSlot k s.passClk else s

/-- The presentation clk of a host access to dword `a` (R418): what has come about before it has come about, and an access of
a block RAM takes the host slot of port A (R23). -/
def hostSlot (a : Nat) (s : State) : State :=
  let s := s.seekSlot 2
  let s := { s with hostClk := some s.clk }.settleAll.rewakes
  match targetOf a with
  | .blockRam b _ => s.modBlock b fun B => { B with hostAt := some s.clk }
  | _ => s

/-- Acts as a host access of dword `a`, in its presentation clk. -/
def onHost (a : Nat) (f : State → State) (s : State) : State := if s.hostOn then f (s.hostSlot a) else s

/-- A host read. The host port makes no access while a reset holds the device, or while boundary scan has the pins. -/
def hostRead (a found : Nat) (s : State) (pop : EccFinding := .clean) : State :=
  if s.pinsTaken then s
  else match s.power.phase with
    | .inReset => s
    | .starting | .boardTest => s.readStarting a
    | .ready => (s.hostSlot a).readReady a found pop

/-! ### Writes -/

/-- The fields of a queue register that its class has (Table 8-10e). -/
def classHas (f : Field) : Bool :=
  match queueAt f.addr with
  | some (q, 3) => if f.lo = 14 then isBulk q else q < 0x1B0
  | _ => true

/-- A value enters the staging copy, with the marks that its boundary needs (R302). -/
def stageHost (f : Field) (v : Nat) (s : State) : State :=
  let s := s.stageWr f v
  if 0x80000 ≤ f.addr && f.addr < 0x80080 then s.stageK (touchWindow ((f.addr - 0x80000) / 8)) 1 else s

/-- The host writes a rw field. -/
def writeField (f : Field) (v : Nat) (s : State) : State :=
  if !f.legal v then s
  else if 0x4000 ≤ f.addr && f.addr < 0x4600 then s.writeHold ((f.addr - 0x4000) / 16) (v != 0)
  else s.wr f v

/-- A cell that waits in BUS_OFF is released (R158, Table 6-6). -/
def releaseCell (c : Nat) (s : State) : State := if s.awaitsRelease c then s.beginCounting c 1 else s

/-- One attempt under HOLD (R165). -/
def retryCell (c : Nat) (s : State) : State :=
  match s.servedPort c with
  | some n =>
    if s.flag (F.CL_STATUS.ALONE c) && s.rd (F.CL_ERRCTRL.PACE (home n)) = 2 then s.wr (F.CL_ERRCTRL.RETRY c) 1 else s
  | none => s

/-- The host empties a bulk queue (R233). -/
def flushQueue (q : Nat) (s : State) : State := if isBulk q then s.emptyQueue q 5 else s

/-- The tick source is acquired anew at the host's request (Table 2-7). -/
def reacquire (s : State) : State := s.returnToSource.tickEvent 0x04

/-- Writing 1 to an sc field starts its action. -/
def startAction (f : Field) (s : State) : State :=
  if f.addr = 0x1000 then s.reacquire
  else if f.addr = 0x90010 then s.requestResync
  else if 0x10000 ≤ f.addr && f.addr < 0x1D800 then
    let c := (f.addr - 0x10000) / 0x200
    if f.lo = 7 then s.releaseCell c else s.retryCell c
  else match queueAt f.addr with
    | some (q, _) => s.flushQueue q
    | none => s

/-- Writing 1 to a w1c bit clears it, unless the device sets it in the same clk (R12, R431). -/
def clearBit (f : Field) (s : State) : State :=
  if (s.recordedNow f).isSome then s
  else
    let s := s.wr f 0
    if f.addr = 0x10 && f.lo = 0 then s.endCauses [0] else s

/-- A host write of a register (R11, R14, R374, R398, R403). `fs`: its fields, with an st field as the one that governs. -/
def writeReg (a : Nat) (fs : List Field) (d : Nat) (stream : Bool) (s : State) : State :=
  let st := fs.filter fun f => f.acc == .st && classHas f
  let rw := fs.filter fun f => f.acc == .rw
  let own := a == 0 || a == 1
  let foreign := s.isStandby && !stream && !own && !(st.isEmpty && rw.isEmpty)
  let legal := st.filter fun f => f.legal (f.of d)
  let differs := legal.any fun f => f.of d != s.staged f
  -- st part
  let s := if foreign then s.discard 6 a false
    else if s.locked then
      if differs then ((s.discard 5 a false).bump F.CE_CNT.LOCKDISC).postOnce 0x1050000 0x01 0x05 0
        ([bitsOf a 17 0, bitsOf a 19 18] ++ words 2 s.tickNo) else s
    else if legal.isEmpty then s
    else (each legal (fun f => stageHost f (f.of d)) s).journal 0 0 (if stream then 3 else 2) 0 0 (a % 2 ^ 18) (a / 2 ^ 18)
  -- the other fields
  let s := if foreign then s else each rw (fun f => writeField f (f.of d)) s
  -- the tether carries no write to w1c and sc fields (R373)
  if stream then s
  else
    let s := each (fs.filter fun f => f.acc == .w1c && f.of d == 1) clearBit s
    each (fs.filter fun f => f.acc == .sc && f.of d == 1) startAction s

/-- A host write of a dword of block RAM above the tables (R177, R184). The HOLD of a status pair that is still to be
rewritten is lost. A word inside a queue's area replaces the item that stands there; which item that is, is open (log
entry 4). -/
def writeRam (b i : Nat) (d : Dword) (s : State) : State :=
  let w := 2 * i
  if w < 0x2400 then
    let n := 8 * b + (w - 0x1C00) / 0x100
    let b' := w % 0x100 / 2
    if s.rewriting n b' then onlyIf (d.hi.getLsbD 16) (hostRelease n b') s
    else s.hostS1 n b' (d.hi.getLsbD 17) (d.hi.getLsbD 16)
  else
    let s := (s.wrRam b w d.lo).wrRam b (w + 1) d.hi
    match s.queueAtRam b w with
    | none => s
    | some q =>
      let (v, s) := s.draw
      let i := v % 512
      let set (l : List QWord) (i : Nat) (x : Word) : List QWord :=
        match l[i]? with | some e => l.set i { e with word := x, bad := none } | none => l
      s.modQueue q fun Q => { Q with vis := set (set Q.vis i d.lo) (i + 1) d.hi }

/-- The host pushes one word of QDATA (Table 8-10b). -/
def pushData (q : Nat) (d : Nat) (s : State) : State :=
  if bitOf d 19 then s.hostAbort q else s.hostPush q (bitsOf d 17 0) (bitOf d 18)

/-- The host pushes two words, neither of which ends a packet (Table 8-10c). -/
def pushTwo (q : Nat) (d : Nat) (s : State) : State := (s.hostPush q (bitsOf d 17 0) false).hostPush q (bitsOf d 35 18) false

/-- A host write of a dword (R421, R426). `stream`: the write comes with the tether stream. -/
def writeReady (a : Nat) (d : Dword) (stream : Bool) (s : State) : State :=
  let t := targetOf a
  let v := d.toNat
  let foreign := s.isStandby && !stream
  let off : Bool := match pageBlock t with | some b => !s.blockOn b | none => false
  if off then s.discard 3 a false
  else match t with
    | .unmapped => s.discard 7 a false
    | .reg r | .blockReg _ r => s.writeReg a r v stream
    | .cellReg c r => s.writeReg a (r.filterMap (s.pageField c)) v stream
    | .qData q =>
      if !queueExists q then s else if s.hostProduces q then s.pushData q v else s.discard 4 a false
    | .qPush2 q =>
      if !queueExists q then s else if s.hostProduces q then s.pushTwo q v else s.discard 4 a false
    | .blockRam b i =>
      if i < 0xE00 then s.discard 2 a false
      else if foreign then s.discard 6 a false
      else s.writeRam b i d
    | .emit i => if foreign then s.discard 6 a false else s.hostWriteList i d
    | .knot i => if foreign then s.discard 6 a false else s.hostKnot i d
    | .captured _ | .scale _ | .binding _ | .policy _ | .journal _ | .dpLog _ | .leLog _ | .ledgerWin _ | .wakeLog _
    | .kaLog _ | .prefetch _ _ => s.discard 2 a false
    | .reserved | .offCell _ | .offBlock _ => s

/-- The tether carries a host write of this dword (R373, Table 13-7): one to st or rw fields, a block RAM window, the knot
window or the emit window that is not discarded. -/
def streams (s : State) (a d : Nat) : Bool :=
  let live (fs : List Field) : Bool :=
    let st := fs.filter fun f => f.acc == .st && classHas f && f.legal (f.of d)
    !(s.locked && st.any fun f => f.of d != s.staged f) && (!st.isEmpty || fs.any (·.acc == .rw))
  let on : Bool := match pageBlock (targetOf a) with | some b => s.blockOn b | none => true
  on && 1 < a && match targetOf a with
    | .reg r | .blockReg _ r => live r
    | .cellReg c r => live (r.filterMap (s.pageField c))
    | .blockRam _ i => 0xE00 ≤ i
    | .emit _ | .knot _ => true
    | _ => false

/-- The active device forwards a host write, one of the emit window with the tick at which it applies (R242, R373, R375). -/
def streamOut (a : Nat) (d : Dword) (s : State) : State :=
  s.forward (.hostWrite (BitVec.ofNat 20 a) d (BitVec.ofNat 36 (s.tickNo + 1 + b2n s.boundaryHere)))

/-- A host write lands, and the active device of a pair forwards it. -/
def landWrite (a : Nat) (d : Dword) (s : State) : State :=
  let carried := s.streams a d.toNat
  onlyIf carried (streamOut a d) (s.writeReady a d false)

/-- A host write. -/
def hostWrite (a : Nat) (d : Dword) (s : State) : State := s.onHost a (landWrite a d)

/-- The st and rw fields of the dword of a field, the field aside, as they read: what a host write of it leaves there. -/
def settings (s : State) (f : Field) : List (Nat × Nat) :=
  let fs : List Field := match targetOf f.addr with
    | .reg r | .blockReg _ r => r
    | .cellReg c r => r.filterMap (s.pageField c)
    | _ => []
  (fs.filter fun g => (g.acc == .st || g.acc == .rw) && g.lo != f.lo).map fun g => (s.fieldView g % g.size, g.lo)

/-- The host writes `v` to one field of a dword, and its settings as they read. -/
def hostSet (f : Field) (v : Nat) (s : State) : State :=
  s.onHost f.addr fun s => s.landWrite f.addr (BitVec.ofNat 36 (pack ((v, f.lo) :: s.settings f)))

/-- A host write with a parity error (R424): with PCHK = 1 nothing lands, and a push rewinds the host's open packet. -/
def parityWrite (a : Nat) (d : Dword) (s : State) : State :=
  s.onHost a fun s =>
    if !s.flag F.HP_CTRL.PCHK then s.landWrite a d
    else
      let s := s.discard 1 a false
      match targetOf a with
      | .qData q | .qPush2 q => if queueExists q && s.hostProduces q then s.rewind q 1 true else s
      | _ => s

/-- Whether an access is one of Table 15-6, causes 0x2 to 0x7. -/
def isDiscarded (s : State) (a : Nat) (read : Bool) (d : Dword) : Bool :=
  let s := s.wr F.HP_DISCAP.CAUSE 0
  2 ≤ (if read then s.readReady a 0 .clean else s.writeReady a d false).rd F.HP_DISCAP.CAUSE

end State

/-! ### The commands -/

/-- REGISTER_WRITE (R11, R421): a host write of a dword, whatever it names. -/
def execRegisterWrite (addr : HostAddr) (data : Dword) (s : State) : Outcome := .next (s.hostWrite addr.toNat data)

/-- RC_READ (R11, R421): a host read of a dword, whatever it names. -/
def execRcRead (addr : HostAddr) (s : State) : Outcome := .next (s.hostRead addr.toNat 0)

/-- TIME_LO_READ (R57). -/
def execTimeLoRead (s : State) : Outcome := .next (s.hostRead 0x100A 0)

/-- SYS_FAULT_CLEAR (R431): the host writes 1 to SYS_FAULT.CHIP. -/
def execSysFaultClear (s : State) : Outcome := .next (s.hostWrite 0x10 1)

/-- REACQ (Table 2-7): the host writes 1 to TK_CTRL.REACQ; its settings are written as they read. -/
def execReacq (s : State) : Outcome := .next (s.hostSet F.TK_CTRL.REACQ 1)

/-- ERRCTRL_RELEASE (Table 6-4): the host writes 1 to CL_ERRCTRL.RELEASE. -/
def execErrctrlRelease (c : CellId) (s : State) : Outcome := .next (s.hostSet (F.CL_ERRCTRL.RELEASE c) 1)

/-- RETRY (R165): the host writes 1 to CL_ERRCTRL.RETRY. -/
def execRetry (c : CellId) (s : State) : Outcome := .next (s.hostSet (F.CL_ERRCTRL.RETRY c) 1)

/-- RSREQ (R379): the host writes 1 to SP_PAIR.RSREQ. -/
def execRsreq (s : State) : Outcome := .next (s.hostSet F.SP_PAIR.RSREQ 1)

/-- The queue of a QID whose queue exists. -/
def State.onQueue (q : BitVec 10) (s : State) (f : Nat → State) : State := if queueExists q.toNat then f (queueBase q.toNat) else s

/-- QDATA_PUSH (R222, R224). -/
def execQdataPush (q : BitVec 10) (data : Dword) (s : State) : Outcome := .next (s.onQueue q fun a => s.hostWrite a data)

/-- QPUSH2 (Table 8-10c). -/
def execQpush2 (q : BitVec 10) (data : Dword) (s : State) : Outcome := .next (s.onQueue q fun a => s.hostWrite (a + 1) data)

/-- FLUSH (R233): the host writes 1 to QCTL.FLUSH of bulk queue HBn, and NIRQ as it reads. -/
def execFlush (n : Fin 4) (s : State) : Outcome := .next (s.hostSet (F.QCTL.FLUSH (0x200 + n)) 1)

/-- The dword of a status pair. -/
def statusAddr (p d : Nat) : Nat := 0x20000 + p / 8 * 0x4000 + 0xE00 + p % 8 * 0x80 + d

/-- STATUS_PAIR_HOLD (R193, Table 7-5): the host writes S1 with RELEASE 0. -/
def execStatusPairHold (p : PortId) (d : BufId) (hold : Bool) (s : State) : Outcome :=
  .next (s.hostWrite (statusAddr p d) (BitVec.ofNat 36 (pack [(b2n hold, 35)])))

/-- S1_RELEASE (R200, Table 7-5): the host writes S1 with RELEASE 1. -/
def execS1Release (p : PortId) (d : BufId) (hold : Bool) (s : State) : Outcome :=
  .next (s.hostWrite (statusAddr p d) (BitVec.ofNat 36 (pack [(b2n hold, 35), (1, 34)])))

/-- PW_HOLD_WRITE (R322, R332): the host writes PW_PCFG with its st fields as they read. -/
def execPwHoldWrite (p : PortId) (hold : Bool) (s : State) : Outcome := .next (s.hostSet (F.PW_PCFG.HOLD p) (b2n hold))

/-- EMIT_WINDOW_WRITE (R241). -/
def execEmitWindowWrite (i : BitVec 15) (data : Dword) (s : State) : Outcome := .next (s.hostWrite (0x58000 + i.toNat) data)

/-- KNOT_WINDOW_WRITE (R244). -/
def execKnotWindowWrite (i : BitVec 17) (data : Dword) (s : State) : Outcome := .next (s.hostWrite (0x60000 + i.toNat) data)

/-- BLOCK_RAM_WRITE (R176, R177). -/
def execBlockRamWrite (b : BlockId) (i : BitVec 14) (data : Dword) (s : State) : Outcome :=
  .next (s.hostWrite (0x20000 + b * 0x4000 + i.toNat) data)

/-- PARITY_ERROR_WRITE (R424). -/
def execParityErrorWrite (addr : HostAddr) (data : Dword) (s : State) : Outcome := .next (s.parityWrite addr.toNat data)

/-- DISCARDED_ACCESS (R426, R427): an access of Table 15-6, causes 0x2 to 0x7; an access that is none of them is not this
command's and changes nothing. -/
def execDiscardedAccess (addr : HostAddr) (read : Bool) (data : Dword) (s : State) : Outcome :=
  .next (if s.hostOn && (s.hostSlot addr.toNat).isDiscarded addr.toNat read data then
      if read then s.hostRead addr.toNat 0 else s.hostWrite addr.toNat data
    else s)

/-- UNCORRECTABLE_READ (R425, R362): a host read that finds words uncorrectable. -/
def execUncorrectableRead (addr : HostAddr) (words : BitVec 2) (s : State) : Outcome := .next (s.hostRead addr.toNat words.toNat)

end Sys2Proof.Machine
end

