-- ==== Sys2Proof/Machine/Bus.lean ====
section
/-! DEFINITION. Frames on the buses (chapters 3 to 7): starts, arbitration, errors, validity, beacons and windows,
integration and recovery, stores and fetches of a cell. -/

namespace Sys2Proof.Machine

/-- A word of a frame that a cell holds for transmission. -/
def TxFrame.w (f : TxFrame) (i : Nat) : Nat := (f.words.getD i 0).toNat

/-- The buffer that a frame comes from. -/
def TxFrame.buf (f : TxFrame) : Option Nat := match f.src with | .buffer d => some d | _ => none

namespace State

/-! ### Taking part in a bus -/

/-- The port whose bus a cell is on: the port that it serves is awake and its wake has ended, and the cell is powered
and not isolated (R316, R321, R350), and it has its pins (R476). -/
def busPort (s : State) (c : Nat) : Option Nat :=
  match s.servedPort c with
  | some n =>
    if !s.pinsTaken && s.portState n ≤ 1 && s.blockOn (n / 8) && !(s.cell c).isolated && (s.port n).waking.isNone then some n else none
  | none => none

/-- Acts where the cell is on the bus of a port. -/
def atBus (c : Nat) (f : Nat → State → State) (s : State) : State :=
  match s.busPort c with
  | some n => f n s
  | none => s

/-- Acts where the cell takes part in the bus: it has integrated and is not bus-off (Table 6-2). -/
def atLine (c : Nat) (f : Nat → State → State) (s : State) : State :=
  s.atBus c fun n s => if s.conf c = 1 || s.conf c = 2 then f n s else s

/-- `atBus` and `atLine`, once the wakes that are decided before have been made (R334). -/
def onBus (c : Nat) (f : Nat → State → State) (s : State) : State := s.rewakes.atBus c f
def onLine (c : Nat) (f : Nat → State → State) (s : State) : State := s.rewakes.atLine c f

/-- The bus of a port becomes busy (R453). -/
def markBusy (n : Nat) (s : State) : State := s.modPort n fun P => { P with busySince := P.busySince <|> some s.clk }

/-! ### Frames to send -/

/-- The native frame that a held frame stands for: its origin is the cell's (R202). -/
def nativeOf (s : State) (n : Nat) (f : TxFrame) : Native :=
  let len := hLen (f.w 3)
  { pri := hPri (f.w 1), kind := hKind (f.w 1), org := s.origin n, brs := hBrs (f.w 1), len := len
    payload := if hKind (f.w 1) = 1 then [] else ((f.words.drop 6).take len).map (·.toNat) }

/-- The payload of a beacon (Table 3-5). -/
def beaconPayload (num period band win : Nat) : List Nat :=
  words 2 num ++ [period % 2 ^ 18, pack [(band, 11), (win, 4), (period / 2 ^ 18, 0)]]

/-- The cell's own beacon of the present tick (R93, R94). -/
def beaconFrame (s : State) (n : Nat) : TxFrame :=
  let h := home n
  let w := beaconPayload s.tickNo s.tick.period (s.rd (F.CL_BEACON.BAND h)) (s.rd (F.CL_BEACON.WIN h))
  ⟨.beacon, recordOf false false (pack [(3, 5), (1, 4)]) (s.origin n * 2 ^ 8) 4 0 w⟩

/-- The frame of a cell that is ready: its own beacon comes first (R202, R203). A loopback sends no beacons
(R162, Table 6-7). -/
def readyFrame (s : State) (c n : Nat) : Option TxFrame :=
  if (s.cell c).beaconReady && !s.compat n && s.testMode n == 0 then some (s.beaconFrame n) else (s.cell c).ready

/-- An isochronous window is open for a cell in the present clk (R97, R98). -/
def windowOpen (s : State) (c : Nat) : Bool :=
  let C := s.cell c
  C.lastBeacon.isSome && !C.suspended && s.tick.time < C.windowEnd

/-- PRI is at or above ISO_BAND of the last valid beacon (R98). -/
def aboveBand (s : State) (c pri : Nat) : Bool := 16 * s.rd (F.CL_BCNSTAT.BAND c) ≤ pri

/-- The beacon that a native frame with PRI 0 and KIND network is, if it is one (R93). -/
def beaconOf (org sof len : Nat) (p : List Nat) : Option Beacon :=
  let w (i : Nat) : Nat := p.getD i 0
  let period := w 2 + 2 ^ 18 * bitsOf (w 3) 3 0
  if len = 4 && 6250 ≤ period && period ≤ 3200000 then
    some ⟨sof, w 0 + 2 ^ 18 * w 1, period, org, bitsOf (w 3) 17 11, bitsOf (w 3) 10 4⟩
  else none

/-- A native frame of the cell, with its SOF at `sof`, as a beacon, whatever its source (R93, R96). -/
def ownBeacon (s : State) (n sof : Nat) (f : TxFrame) : Option Beacon :=
  let g := s.nativeOf n f
  if g.pri = 0 && g.kind = 3 then beaconOf g.org sof g.len g.payload else none

/-- A held frame is a beacon. -/
def sendsBeacon (s : State) (n : Nat) (f : TxFrame) : Bool := (s.ownBeacon n 0 f).isSome

/-- The next expected beacon start (R101): a master's own, or one period after the last valid beacon. -/
def beaconDue (s : State) (c n : Nat) (b : Beacon) : Nat :=
  if s.flag (F.CL_BCNSTAT.SELF c) then
    let ofs := s.rd (F.CL_BEACON.BCN_OFS (home n))
    if s.tick.boundary + ofs ≤ b.sof then s.nextBoundary + ofs else s.tick.boundary + ofs
  else b.sof + b.period

/-- The beacon guard lets a frame start now (R101). -/
def guardFree (s : State) (c n : Nat) (f : Native) : Bool :=
  let C := s.cell c
  match C.lastBeacon with
  | none => true
  | some b =>
    let e := s.beaconDue c n b
    C.suspended || e < s.tick.time ||
      s.tick.time + Native.dmax f.brs (if f.kind = 1 then 0 else f.len) (s.nbt n) (s.dbt n) +
        s.rd (F.CL_NATIVE.GUARD (home n)) * s.nbt n ≤ e

/-- Window, guard and FD option let a frame start now (R99, R101, R108, R118). They hold no beacon, whatever its source. -/
def frameFree (s : State) (c n : Nat) (f : TxFrame) : Bool :=
  if s.compat n then !cFdf (f.w 2) || s.flag (F.CL_COMPAT.FDOE (home n))
  else s.sendsBeacon n f || (!(s.windowOpen c && s.aboveBand c (hPri (f.w 1))) && s.guardFree c n (s.nativeOf n f))

/-- Solitude pacing lets an attempt start (Table 6-8). -/
def paceFree (s : State) (c n : Nat) : Bool :=
  let pace := s.rd (F.CL_ERRCTRL.PACE (home n))
  !s.flag (F.CL_STATUS.ALONE c) || pace == 0 || (pace == 1 && !(s.cell c).paced) ||
    (pace == 2 && s.flag (F.CL_ERRCTRL.RETRY c))

/-- The source of a ready frame still offers it: a buffer is pending and not suspended (R200, R171), the transmit
queue holds its head, the network slot its frame. -/
def stillOffered (s : State) (n : Nat) (f : TxFrame) : Bool :=
  match f.src with
  | .buffer d => (s.port n).pend.contains d && !s.suspended n d
  | .tq => s.tqHead n != []
  | .network => (s.port n).net.isSome
  | .beacon => true

/-- Words 1 to 3 of a compatibility frame as it is sent (Table 4-2, R108): ESI is recessive while the cell is
error-passive, BRS needs CL_COMPAT.BRSE, and reserved and unused bits read 0. -/
def compatWords (s : State) (c n : Nat) (f : TxFrame) : Nat × Nat × Nat :=
  let w1 := f.w 1
  let w2 := f.w 2
  let fd := cFdf w2
  let h2 := pack [(if cIde w2 then bitsOf w2 17 7 else 0, 7), (b2n (cIde w2), 6), (b2n fd, 5),
    (b2n (fd && cBrs w2 && s.flag (F.CL_COMPAT.BRSE (home n))), 4), (b2n (fd && s.conf c == 2), 3), (b2n (cRtr w2 && !fd), 2)]
  (if cIde w2 then w1 else w1 / 128 * 128, h2, pack [(Compat.bytes h2 (f.w 3), 4), (cDlc (f.w 3), 0)])

/-- The bits of a frame as a cell sends it (R72, R106). -/
def bitsSent (s : State) (c n : Nat) (f : TxFrame) : List Bool :=
  if s.compat n then
    let (h1, h2, h3) := s.compatWords c n f
    Compat.sent h1 h2 h3 ((f.words.drop 6).map (·.toNat))
  else (s.nativeOf n f).sent

/-- A transmitter measures its transceiver delay (R135, R137). `tdc`: clk from its dominant edge to the first dominant
RXD, where the attempt has reached the measuring edge. -/
def measureDelay (c n : Nat) (f : TxFrame) (tdc : Option (BitVec 8)) (s : State) : State :=
  let h := home n
  let fast := if s.compat n then cFdf (f.w 2) && cBrs (f.w 2) && s.flag (F.CL_COMPAT.BRSE h) else hBrs (f.w 1)
  match tdc with
  | none => s
  | some v =>
    if !fast || !s.flag (F.CL_TDC.TDCE h) then s
    else
      let v := max v.toNat (s.rd (F.CL_TDC.TDCF h))
      if v ≤ 127 then ((s.wr (F.CL_TDCSTAT.TDCV c) v).wr (F.CL_TDCSTAT.VALID c) 1).wr (F.CL_TDCSTAT.CLAMP c) 0
      else (s.wr (F.CL_TDCSTAT.CLAMP c) 1).bump (F.CL_TDCSTAT.RANGE c)

/-- A cell starts a frame, or joins one whose SOF it takes as its own in this clk (R75, R76, R80). In internal
loopback the bus is ignored (Table 6-7). -/
def startFrame (c n : Nat) (tdc : Option (BitVec 8)) (s : State) : State :=
  let C := s.cell c
  let joins := C.rxSof == some (s.tick.time - 2)
  let looped := s.testMode n == 2
  let idle := C.attempt.isNone && C.flag.isEmpty && (looped || joins || (s.busIdle n && C.rxSof.isNone))
  match s.readyFrame c n with
  | none => s
  | some f =>
    if s.portState n ≠ 0 || s.listens n || s.searching c || C.stopped || !idle || !s.stillOffered n f ||
        (!s.compat n && s.origin n == 0x3FF) || !s.frameFree c n f || !s.paceFree c n then s
    else
      let s := s.modCell c fun C =>
        { C with attempt := some ⟨f, s.tick.time, s.bitsSent c n f, false⟩, ready := if f.src = .beacon then C.ready else none
                 paced := true, sentLast := false, resynced := false }
      let s := match f.buf with
        | some d => s.modPort n fun P => { P with started := if d ∈ P.started then P.started else P.started ++ [d] }
        | none => s
      let s := onlyIf (!looped) (markBusy n) s
      s.measureDelay c n f tdc

/-! ### Reception -/

/-- A frame from `org` with its SOF at `sof` is checked against the open window (R100). -/
def bandCheck (c n sof pri org : Nat) (s : State) : State :=
  let C := s.cell c
  let s := s.modCell c fun C => { C with bandSeen := true }
  if s.compat n || C.lastBeacon.isNone || C.suspended || C.windowEnd ≤ sof || !s.aboveBand c pri then s
  else
    let s := ((s.wr (F.CL_BANDLOG.ORG c) org).wr (F.CL_BANDLOG.PRI c) pri).bump (F.CL_BANDLOG.COUNT c)
    s.modCell c fun C => { C with bandFirst := C.bandFirst <|> some (org, pri, s.now), bandCount := C.bandCount + 1 }

/-- The cell receives a frame whose SOF edge was at `edge`, and `head` holds its bits as far as ORG (R100, R186). The
band check of a frame with PRI 0 and KIND network, which may be a beacon, waits until it shows which it is. -/
def receiveFrom (c n edge : Nat) (head : List Bool) (s : State) : State :=
  let s := s.modCell c fun C =>
    { C with rxSof := some (edge - 2), bandSeen := false, flag := [], sentLast := false, resynced := false }
  match (Scan.run' (s.ear n false) {} head []).ident with
  | some (pri, kind, org) => if pri = 0 && kind = 3 then s else s.bandCheck c n (edge - 2) pri org
  | none => s

/-- The band check of a network frame with PRI 0 whose reception an error ends: it is made where what has been received
rules a beacon out (R100; log entry 117, DEDUCED). -/
def bandAtError (c n : Nat) (sc : Scan) (s : State) : State :=
  let C := s.cell c
  match C.rxSof, sc.ident with
  | some sof, some (0, 3, org) => if C.attempt.isSome || C.bandSeen || !sc.noBeacon then s else s.bandCheck c n sof 0 org
  | _, _ => s

/-- The SOF edge of another node (R130). -/
def sofReceived (c n : Nat) (head : List Bool) (s : State) : State :=
  let C := s.cell c
  if C.attempt.isSome || C.stopped || s.testMode n == 2 || s.arState c == 1 then s
  else s.receiveFrom c n s.tick.time head

/-- A transmitter loses arbitration and receives the frame (R77), whose SOF edge it has sampled at `edge`. -/
def loseArbitration (c n edge : Nat) (head : List Bool) (s : State) : State :=
  match (s.cell c).attempt with
  | none => s
  | some a =>
    let s := match a.frame.buf with
      | some d => if a.orphan then s else s.clashAttempt c n d false
      | none => s
    let s := s.endAttempt c
    if (s.cell c).rxSof.isSome then s else s.receiveFrom c n edge head

/-! ### Errors (R91, R153, R163) -/

/-- A cell that enters BUS_OFF stops an uncommitted sleep round of its port (Table 12-5, cause 0x5). -/
def offRound (c n : Nat) (s : State) : State := if s.conf c = 3 then s.abortRound n 5 0x3FF 0 else s

/-- The counters of Table 6-1 change, with what a bus-off brings. -/
def countError (c n dT dR ty fl : Nat) (s : State) : State := (s.addErrors c n dT dR ty fl).offRound c n

/-- A listening cell that detects an error records it and stops decoding (R163). -/
def listenError (c ty : Nat) (dph : Bool) (pos field : Nat) (s : State) : State :=
  (s.captureError c ty false dph pos field).modCell c fun C => { C with stopped := true, rxSof := none }

/-- An error that starts an error flag (rows 3, 5, 6 and 7 of Table 6-1); `tx`: the cell is a transmitter. -/
def flagError (c n : Nat) (tx : Bool) (ty field pos : Nat) (dph noDom arbStuff : Bool) (s : State) : State :=
  if s.arState c = 2 then (s.listenError c ty dph pos field).rateNext c
  else if s.listens n then s.listenError c ty dph pos field
  else
    let passive := s.conf c == 2
    let buf := (s.cell c).attempt.bind fun a => if a.orphan then none else a.frame.buf
    let s := s.captureError c ty tx dph pos field
    let s := s.startFlag c tx false
    let s := onlyIf (ty == 6 && s.testMode n == 0) (countAck c) s
    let s := match buf with
      | some d => s.clashAttempt c n d (ty == 1 && (field == 2 || field == 4))
      | none => s
    let s := onlyIf (s.cell c).attempt.isSome (endAttempt c) s
    let dT := if !tx then 0
      else if ty = 6 && passive && noDom then 0
      else if ty = 2 && arbStuff && s.compat n then 0
      else 8
    s.countError c n dT (if tx then 0 else 1) ty field

/-- A compatibility cell sends an overload frame (R109). -/
def overload (c n : Nat) (s : State) : State :=
  let C := s.cell c
  if !s.compat n || s.listens n || s.searching c || C.attempt.isSome then s
  else (s.bump (F.CL_COMPCNT.OVLD c)).startFlag c (!C.flag.isEmpty && C.flagTx) true

/-- What a cell meets in and after its own flag (Table 6-1): rows 1, 2, 4 and 8; a dominant bit in its delimiter or in
IFS, which is an error of its own (rows 3 and 7) or calls for an overload frame (R109). A flag or overload frame that
follows row 11 counts here as any other (log entry 92). -/
def afterFlag (c n : Nat) (e : FlagEvent) (noDom : Bool) (s : State) : State :=
  let C := s.cell c
  let tx := C.flagTx
  match e with
  | .bitInFlag =>
    (s.captureError c 1 tx false 0x3FF 0xA).countError c n (if tx then 8 else 0) (if tx then 0 else 8) 1 0xA
  | .domAfterFlag => if tx || C.flagOvl then s else s.countError c n 0 8 1 0xB
  | .excessDominant =>
    (s.captureError c 7 tx false 0x3FF 0xB).countError c n (if tx then 8 else 0) (if tx then 0 else 8) 7 0xB
  | .delimiter => s.flagError c n tx 3 0xB 0x3FF false noDom false
  | .overload => s.overload c n
  | .ifs => s.flagError c n false 3 9 0x3FF false noDom false

/-- A receiver samples dominant in the last EOF bit, at position `pos` (R89, row 11 of Table 6-1): the frame stays
valid, and a flag or an overload frame follows. R109 does not name this case among those of an overload frame, and row 11
does: in compatibility mode the cell sends one, and OVLD counts it (DESIGN CHOICE, log entry 113). In a trial that has found
no rate the error ends it (R146; log entry 91). -/
def lastEofError (c n pos : Nat) (s : State) : State :=
  if s.listens n || s.searching c then
    let s := s.listenError c 3 false pos 8
    onlyIf (s.arState c == 2) (rateNext c) s
  else
    let s := s.captureError c 3 false false pos 8
    if s.compat n then s.overload c n else s.startFlag c false false

/-- How a cell takes part in the frame on its bus: a transmitter looks for its ACK outside the loopback modes; a
receiver drives the ACK slot unless it listens (R88, Table 6-7). After its own frame a cell drives none. -/
def hearing (s : State) (c n : Nat) : Ear :=
  let C := s.cell c
  s.ear n (if C.attempt.isSome then s.testMode n == 0 else !s.listens n && !s.searching c && !C.sentLast)

/-- The bits that a cell sends. -/
def sending (s : State) (c : Nat) : List Bool := match (s.cell c).attempt with | some a => a.bits | none => []

/-- A cell that is on the bus has sampled these bits, the last of which shows an error: from SOF on, from the start of its
own flag on where it sends one, or from its resynchronization on: then they are bits of IFS, of which a dominant one among
the first two is a form error (R163, Table 3-4). -/
def busError (c n : Nat) (bits : List Bool) (noDom : Bool) (s : State) : State :=
  let C := s.cell c
  if C.stopped || s.arState c = 1 then s
  else if C.resynced then
    if !s.compat n && (bits == [false] || bits == [true, false]) then s.flagError c n false 3 9 0x3FF false noDom false else s
  else if !C.flag.isEmpty then
    match (flagScan (s.compat n) (C.flag.any id) bits).event with
    | some e => s.afterFlag c n e noDom
    | none => s
  else
    let sc := Scan.run' (s.hearing c n) {} bits (s.sending c)
    let s := onlyIf (sc.verdict.isSome && !s.compat n) (bandAtError c n sc) s
    match sc.verdict with
    | some (.error ty field pos dph arbStuff) => s.flagError c n C.attempt.isSome ty field pos dph noDom arbStuff
    | some .overload => s.overload c n
    | some _ => s
    | none => if sc.lastEof && C.attempt.isNone && C.rxSof.isNone then s.lastEofError c n (sc.crcEnd + 10) else s

/-! ### Beacons (R93 to R102) -/

/-- The beacon master becomes `m` (R96). -/
def setMaster (c m : Nat) (s : State) : State :=
  let prev := s.rd (F.CL_BCNSTAT.MASTER c)
  if prev = m then s else (s.wr (F.CL_BCNSTAT.MASTER c) m).post 0x03 0x02 c [pack [(m, 8), (c, 0)], prev]

/-- A beacon is a tick reference (R58, R63, R64, R96): one of another origin, on the port that TK_SRC names. The local
boundary of a tick other than the present one is taken at the present tick's period (DESIGN CHOICE, log entry 112). -/
def beaconReference (n : Nat) (b : Beacon) (s : State) : State :=
  if s.sourceNow ≠ 3 || s.rd F.TK_SRC.PORT ≠ n then s
  else
    let local' : Int := (s.tick.boundary : Int) + ((b.tickNo : Int) - s.tickNo) * s.tick.period
    s.reference ((b.sof : Int) - s.rd F.TK_HOPDLY.HOPDLY - local') b.tickNo b.period local' true

/-- A valid beacon, sent or received (R96 to R98, R281). One of another origin withdraws the cell's own of this tick
(R94). -/
def takeBeacon (c n : Nat) (b : Beacon) (own : Bool) (s : State) : State :=
  let fin := b.sof + b.win * b.period / 128
  let other := b.org != s.origin n
  let s := ((((s.setMaster c b.org).wr (F.CL_BCNSTAT.SELF c) (b2n own)).wr (F.CL_BCNSTAT.BAND c) b.band).wr
    (F.CL_BCNSTAT.WIN c) b.win).wr (F.CL_BCNSTAT.WINOPEN c) (b2n (s.tick.time < fin))
  let s := s.modCell c fun C =>
    { C with lastBeacon := some b, suspended := false, beaconMisses := 0, windowEnd := fin
             beaconReady := C.beaconReady && !other, beaconDone := C.beaconDone || other }
  let s := s.modPort n fun P => { P with beacons := (b :: P.beacons).take 16 }
  if own then s else s.beaconReference n b

/-! ### Validity (R89) -/

/-- A request that the cell receives makes its answers pending (R195, R117); one that it has sent itself does not, and neither
does one that a loopback brings back (DESIGN CHOICE, log entry 114). -/
def answerRequest (n : Nat) (f : BusFrame) (s : State) : State :=
  if !isRequest (s.compat n) f.h1 f.h2 then s
  else
    each (s.txBuffers n) (fun d s =>
      let w2 := s.txWord n d 2
      let fits := if s.compat n then !cFdf w2 && !cRtr w2 && cIde w2 == cIde f.h2 && cId (s.txWord n d 1) w2 == cId f.h1 f.h2
        else s.txKind n d == 0 && s.txPri n d == hPri f.h1
      onlyIf ((s.desc n d).reqans && fits) (release n d) s) s

/-- What a valid native frame of another node brings beside its store. `sof`: its SOF. -/
def nativeReceived (c n sof : Nat) (f : BusFrame) (s : State) : State :=
  let org := hOrg f.h2
  let pri := hPri f.h1
  let kind := hKind f.h1
  let s := if org = s.origin n then
      (s.bump (F.CL_NATCNT.DUPORG c)).post 0x03 0x04 c [pack [(org, 8), (c, 0)], pack [(kind, 11), (pri, 0)]]
    else s
  let zero := pri = 0 && kind = 3
  let b := if zero then beaconOf org sof (hLen f.h3) f.payload else none
  let s := onlyIf (b.isNone && !(s.cell c).bandSeen) (bandCheck c n sof pri org) s
  let s := match b with
    | some b => s.takeBeacon c n b false
    | none =>
      let s := onlyIf zero (·.bump (F.CL_NATCNT.BCNBAD c)) s
      s.clashFrame c n pri kind org (hLen f.h3) f.payload (s.targetBuffer n (matchKey false f.h1 f.h2))
  let s := onlyIf (kind == 3 && pri != 0) (networkFrame n org f.payload (sof % 2 ^ 36)) s
  let s := s.memberTraffic n org
  onlyIf (org == s.partnerOrigin n) (·.modPair fun P => { P with partnerFrame := true }) s

/-- A frame with its SOF at `sof` becomes valid for a receiver (R89, R189). -/
def takeFrame (c n sof : Nat) (f : BusFrame) (s : State) : State :=
  let compat := s.compat n
  let s := onlyIf (!s.listens n) (receivedOk c n) s
  let s := (s.clearAckrun c).reportFrame n f (sof % 2 ^ 36)
  let s := onlyIf (!compat) (nativeReceived c n sof f) s
  let s := s.answerRequest n f
  s.accept c n (matchKey compat f.h1 f.h2) (recordOf compat false f.h1 f.h2 f.h3 (sof % 2 ^ 36) f.payload)

/-- A cell that receives a frame has sampled these bits of it, through the sixth EOF bit or the seventh (R89). In a
trial the frame counts, and nothing else comes of it (R144, R146; log entry 91). -/
def validReceived (c n : Nat) (bits : List Bool) (s : State) : State :=
  let e := s.hearing c n
  let sc := Scan.run' e {} bits []
  match (s.cell c).rxSof with
  | none => s
  | some sof =>
    if (s.cell c).attempt.isSome || (s.cell c).stopped || !sc.valid || s.arState c = 1 then s
    else
      let s := s.modCell c fun C => { C with rxSof := none }
      let s := if s.arState c = 2 then s.rateGood c else s.takeFrame c n sof (sc.frame e)
      onlyIf sc.lastEof (lastEofError c n (sc.crcEnd + 10)) s

/-- A sent buffer takes its timestamp and count (R187, R116). -/
def bufferSent (n d sof : Nat) (s : State) : State :=
  let s := s.unpend n d
  let b := n / 8
  let base := s.txRecord n d
  let ts := words 2 (sof % 2 ^ 36)
  let w2 := s.txWord n d 2
  let w3 := s.txWord n d 3
  let bytes := if cRtr w2 && !cFdf w2 then 0 else dlcBytes (cFdf w2) (cDlc w3)
  let s := onlyIf (s.compat n) (wrRam b (base + 3) (wordOf (putBits w3 10 4 bytes))) s
  let s := (s.wrRam b (base + 4) (wordOf (ts.getD 0 0))).wrRam b (base + 5) (wordOf (ts.getD 1 0))
  let s := (s.addCount n d).grant (s.servingCell n)
  onlyIf (s.desc n d).notify (bufferEvent n d 0x03 0 ts) s

/-- The frame that the bits of an attempt spell. -/
def ownFrame (s : State) (n : Nat) (a : Attempt) : BusFrame :=
  let e := s.ear n false
  (Scan.run' e {} a.bits []).frame e

/-- The own frame that a loopback mode stores as received (R162, Table 6-7), its header words as R114 gives them. -/
def acceptOwn (c n : Nat) (a : Attempt) (s : State) : State :=
  let f := s.ownFrame n a
  s.accept c n (matchKey (s.compat n) f.h1 f.h2) (recordOf (s.compat n) true f.h1 f.h2 f.h3 (a.sof % 2 ^ 36) f.payload)

/-- What the source of a sent frame takes of it (R187, R228, R330). One whose source has been withdrawn since is left
alone. -/
def sourceSent (c n : Nat) (a : Attempt) (s : State) : State :=
  let f := a.frame
  match f.src with
  | .buffer d => if a.orphan then s else (s.clashAttempt c n d false).bufferSent n d a.sof
  | .tq => if a.orphan then s else (s.dropPacket (qid n 2)).2
  | .network => s.networkSent n a.sof ⟨hPri (f.w 1), f.words.drop 6⟩ (!a.orphan)
  | .beacon => s.modCell c fun C => { C with beaconReady := C.beaconReady && a.sof < s.tick.boundary }

/-- The groups of the port that an own frame wakes: those that its origin is a member of, and those that a WAKE frame from a
buffer or the transmit queue names (R337); the network slot's frames are `networkSent`'s. -/
def groupTraffic (n : Nat) (a : Attempt) (s : State) : State :=
  let g := s.nativeOf n a.frame
  let wake := g.kind == 3 && g.pri != 0 && a.frame.src != .network && netOk g.payload && bitsOf (g.payload.headD 0) 17 12 == 4
  (onlyIf wake (·.wakeGroups n g.org (bitsOf (g.payload.headD 0) 5 0)) s).memberTraffic n g.org

/-- A cell that transmits has sampled these bits of its frame, through the seventh EOF bit, and its frame is valid (R89,
R187, R228). A beacon acts whatever its source (R93, R96). -/
def validSent (c n : Nat) (bits : List Bool) (s : State) : State :=
  match (s.cell c).attempt with
  | none => s
  | some a =>
    if !(Scan.run' (s.hearing c n) {} bits a.bits).validSent then s
    else
      let g := s.nativeOf n a.frame
      let live := s.testMode n == 0
      let b := if !s.compat n && live then s.ownBeacon n a.sof a.frame else none
      let s := ((s.sentOk c n).clearAckrun c).endAttempt c
      let s := s.modCell c fun C => { C with rxSof := none, sentLast := true }
      let s := onlyIf (s.testMode n != 2) (reportFrame n (s.ownFrame n a) (a.sof % 2 ^ 36)) s
      let s := onlyIf (!s.compat n && b.isNone && live) (clashFrame c n g.pri g.kind g.org g.len g.payload none) s
      let s := onlyIf (2 ≤ s.testMode n) (acceptOwn c n a) s
      let s := s.sourceSent c n a
      let s := onlyIf (!s.compat n && live) (groupTraffic n a) s
      match b with
      | some b => s.takeBeacon c n b true
      | none => s

/-! ### Integration and recovery (Table 6-3, R158, R159) -/

/-- A WAKE frame is owed once the cell has integrated (R335). -/
def owedWake (n : Nat) (s : State) : State :=
  match (s.port n).sendWake with
  | none => s
  | some src => (s.modPort n fun P => { P with sendWake := none }).sendWakeFrame n 0x3F src

/-- The bus is idle for the cell, which takes part from now on. -/
def joinBus (c n : Nat) (s : State) : State :=
  let s := (s.closeBusy n).modCell c fun C => { C with rxSof := none, flag := [], stopped := false, sentLast := false, resynced := false }
  s.owedWake n

/-- An integrating cell has sampled 11 consecutive recessive bits. -/
def integrated (c n : Nat) (s : State) : State :=
  if s.conf c ≠ 0 then s
  else (s.wr (F.CL_STATUS.CONF c) (if 128 ≤ s.tec c || 128 ≤ s.rec' c then 2 else 1)).joinBus c n

/-- A bus-off cell counts one recovery sequence (R159, R110). -/
def recovered (c n : Nat) (s : State) : State :=
  let s := s.counted c
  if s.conf c ≠ 3 || s.rd (F.CL_STATUS.RECOV c) ≠ 3 then s
  else
    let s := s.wr (F.CL_STATUS.SEQCNT c) (s.rd (F.CL_STATUS.SEQCNT c) + 1)
    if s.rd (F.CL_STATUS.SEQCNT c) < (if s.compat n then 128 else 64) then s
    else
      let s := ((s.wr (F.CL_ECNT.TEC c) 0).wr (F.CL_ECNT.REC c) 0).wr (F.CL_STATUS.CONF c) 1
      let s := (s.wr (F.CL_STATUS.RECOV c) 0).wr (F.CL_STATUS.EWARN c) 0
      (s.cellEvent c 0x06 []).joinBus c n

/-! ### Stores, pushes and fetches (R190, R191, R198, R203) -/

/-- A due store waits: behind a listed buffer (R198), the profile engine (R275), or the bridge (R290). -/
def storeHeld (s : State) (n : Nat) (x : DueStore) : Bool :=
  match x.dest with
  | .buffer d => (s.port n).listed.contains d || s.profileHolds n d ||
      (s.flag (F.SB_PBUF.EN n) && s.rd (F.SB_PBUF.SRXBUF n) == d && (s.port n).service != [])
  | .queue _ => true

/-- The first due element that `p` takes, and the others. -/
def takeDue (p : DueStore → Bool) : List DueStore → Option (DueStore × List DueStore)
  | [] => none
  | x :: t => if p x then some (x, t) else (takeDue p t).map fun r => (r.1, x :: r.2)

/-- The first due store of a cell that does not wait claims its buffer, once the rewrite of its entry is done (R184). -/
def claimDue (c n : Nat) (s : State) : State :=
  if (s.cell c).store.isSome then s
  else
    match takeDue (fun x => !s.storeHeld n x) (s.cell c).due with
    | some (⟨.buffer d, rec⟩, rest) =>
      ((s.modCell c fun C => { C with due := rest }).advanceClk (s.rewriteEnd n d)).claimStore c n d rec
    | _ => s

/-- The first due push of a cell begins, or is dropped for want of credit for the whole packet (R190, R220). -/
def pushDue (c : Nat) (s : State) : State :=
  let isQueue (x : DueStore) : Bool := match x.dest with | .queue _ => true | _ => false
  if (s.cell c).pushing.isSome then s
  else
    match takeDue isQueue (s.cell c).due with
    | some (⟨.queue q, rec⟩, rest) =>
      let s := s.modCell c fun C => { C with due := rest }
      if s.credit q < rec.length then s.bump (F.CL_FILTCNT.QDROP c)
      else
        let s := ((s.grant c).settle q).modQueue q fun Q =>
          { Q with opened := rec.dropLast.map fun w => ⟨w, false, none⟩, discarding := false }
        s.modCell c fun C => { C with pushing := some (q, rec.getLastD 0) }
    | _ => s

/-- The frame that a cell is to fetch: it has no ready frame, or one earlier in order than its ready frame has appeared
(R203). -/
def fetchDue (s : State) (c n : Nat) : Option TxSource :=
  let C := s.cell c
  let first := s.firstCandidate c n
  if C.fetch.isSome || C.ready.map (·.src) = first || s.listens n then none else first

/-- A cell fetches, once the rewrite of the buffer's entry is done (R184). -/
def fetchNow (c n : Nat) (s : State) : State :=
  match s.fetchDue c n with
  | none => s
  | some (.buffer d) => (s.advanceClk (s.rewriteEnd n d)).claimFetch c n
  | some _ => s.claimFetch c n

/-- Port A grants a cell what it asks for, in one access: a due store, a due push, or a fetch. -/
def serveCell (c : Nat) (s : State) : State :=
  match s.servedPort c with
  | none => s
  | some n =>
    let due := (s.cell c).due
    if (s.cell c).store.isNone && (takeDue (fun x => !s.storeHeld n x) due).isSome then s.claimDue c n
    else if (s.cell c).pushing.isNone && due.any (fun x => match x.dest with | .queue _ => true | _ => false) then s.pushDue c
    else if (s.busPort c).isSome then s.fetchNow c n
    else s

/-- Cell `c` comes to its turn at port A (R23): a host access of this clk has the clk to itself, and the cells that come
before `c` in the rotation are granted what they ask for. -/
def portATurn (c : Nat) (s : State) : State :=
  let s := onlyIf ((s.block (c / 9)).hostAt == some s.clk) passClk s
  each (s.rotationBefore c) serveCell s

/-- A store of cell `c` begins in its turn. -/
def beginStore (c n : Nat) (s : State) : State := (s.portATurn c).claimDue c n

/-- The store in progress ends, and the units that wait for it are told (R275, R290). -/
def endStore (c n : Nat) (s : State) : State :=
  match (s.cell c).store with
  | none => s
  | some o =>
    let s := ((s.portATurn c).advanceClk (s.rewriteEnd n o.buf)).closeStore c n o
    if o.stale then s
    else
      let s := s.profileStored n o.buf
      onlyIf (s.flag (F.SB_PBUF.EN n) && s.rd (F.SB_PBUF.SRXBUF n) == o.buf)
        (·.modPort n fun P => { P with service := P.service ++ [s.clk] }) s

/-- A push of cell `c` begins in its turn. -/
def beginPush (c : Nat) (s : State) : State := (s.portATurn c).pushDue c

/-- The last word of a packet that a cell pushes: the packet becomes visible (R222). The rest of a rewound one is discarded
(R231). -/
def endPush (c : Nat) (s : State) : State :=
  match (s.cell c).pushing with
  | none => s
  | some (q, w) =>
    let s := (((s.portATurn c).grant c).modCell c fun C => { C with pushing := none }).settle q
    if (s.queue q).discarding then s.modQueue q fun Q => { Q with discarding := false }
    else (s.modQueue q fun Q => { Q with vis := Q.vis ++ Q.opened ++ [⟨w, true, none⟩], opened := [] }).watch q 2

/-- A cell fetches in its turn. -/
def beginFetch (c n : Nat) (s : State) : State := if (s.fetchDue c n).isNone then s else (s.portATurn c).fetchNow c n

/-- A fetch of cell `c` ends in its turn. -/
def endFetch (c n : Nat) (s : State) : State := if (s.cell c).fetch.isNone then s else (s.portATurn c).closeFetch c n

end State

/-! ### The commands -/

/-- FRAME_START (R75, R76, R99, R101, R135). -/
def execFrameStart (c : CellId) (tdc : Option (BitVec 8)) (s : State) : Outcome :=
  ready s (State.onLine c fun n => State.startFrame c n tdc)

/-- FRAME_SOF_RECEIVED (R130, R186, R100): the bus is busy from here, whatever the cell makes of the frame. -/
def execFrameSofReceived (c : CellId) (head : List Bool) (s : State) : Outcome :=
  ready s fun s =>
    let s := s.rewakes
    let s := match s.servedPort c with
      | some n => if !s.pinsTaken && s.portState n ≤ 1 && s.blockOn (n / 8) then s.markBusy n else s
      | none => s
    s.atLine c fun n => State.sofReceived c n head

/-- ARBITRATION_LOST (R77). -/
def execArbitrationLost (c : LostArbitration) (s : State) : Outcome :=
  ready s (State.onLine c.cell fun n => State.loseArbitration c.cell n c.edge.toNat c.head)

/-- ERROR_DETECTED (R91, R153, R163). -/
def execErrorDetected (c : CellId) (e : HeardError) (s : State) : Outcome :=
  ready s (State.onLine c fun n => State.busError c n e.bits e.noDom)

/-- PROTOCOL_EXCEPTION (R108): the cell waits for 11 consecutive recessive bits. -/
def execProtocolException (c : CellId) (bits : List Bool) (s : State) : Outcome :=
  ready s (State.onLine c fun n s =>
    let C := s.cell c
    match (Scan.run' (s.hearing c n) {} bits []).verdict with
    | some (.exception pos) =>
      if C.rxSof.isNone || C.attempt.isSome || C.stopped || s.arState c = 1 then s
      else
        let s := (s.captureError c 8 false false pos 2).bump (F.CL_COMPCNT.PEXC c)
        s.modCell c fun C => { C with stopped := true, rxSof := none }
    | _ => s)

/-- FRAME_VALID_RECEIVER (R89, R189). -/
def execFrameValidReceiver (c : CellId) (bits : List Bool) (last : Bool) (s : State) : Outcome :=
  ready s (State.onLine c fun n => State.validReceived c n (bits ++ [last]))

/-- FRAME_VALID_TRANSMITTER (R89, R187). -/
def execFrameValidTransmitter (c : SentBits) (s : State) : Outcome :=
  ready s (State.onLine c.cell fun n => State.validSent c.cell n c.bits)

/-- INTEGRATION_COMPLETE (Table 6-3). -/
def execIntegrationComplete (c : CellId) (s : State) : Outcome := ready s (State.onBus c (State.integrated c))

/-- RECOVERY_SEQUENCE (R159). -/
def execRecoverySequence (c : CellId) (s : State) : Outcome := ready s (State.onBus c (State.recovered c))

/-- RECOVERY_DELAY_ELAPSED (Table 6-4). In STANDBY the wait goes on (R317). -/
def execRecoveryDelayElapsed (c : CellId) (s : State) : Outcome :=
  ready s fun s =>
    if s.conf c = 3 && s.awaitsRelease c && s.rd (F.CL_STATUS.RECOV c) = 2 &&
        s.rd (F.CL_ERRCTRL.DELAY (s.cfg c)) ≤ (s.cell c).recDelay then s.beginCounting c 2 else s

/-- BEACON_READY (R94): device time reaches B(n) + BCN_OFS. -/
def execBeaconReady (c : CellId) (s : State) : Outcome :=
  ready s (State.onBus c fun n s =>
    let h := State.home n
    let t := s.tick.boundary + s.rd (F.CL_BEACON.BCN_OFS h)
    if !s.flag (F.CL_BEACON.CAND h) || s.compat n || s.testMode n ≠ 0 || s.origin n = 0x3FF ||
        s.nextBoundary ≤ t || (s.cell c).beaconDone then s
    else (s.advance t).modCell c fun C => { C with beaconReady := true, beaconDone := true })

/-- BEACON_MISSING (R97): P + 1,000 clk after the last valid beacon, and after each further P. -/
def execBeaconMissing (c : CellId) (s : State) : Outcome :=
  ready s (State.onBus c fun n s =>
    match (s.cell c).lastBeacon with
    | none => s
    | some b =>
      if s.compat n then s
      else
        let k := (s.cell c).beaconMisses
        let s := s.advance (b.sof + (k + 1) * b.period + 1000)
        let s := (s.bump (F.CL_NATCNT.BCNMISS c)).modCell c fun C => { C with beaconMisses := k + 1, suspended := true }
        if k ≠ 0 then s
        else
          let m := s.rd (F.CL_BCNSTAT.MASTER c)
          let s := s.post 0x03 0x03 c (pack [(m, 8), (c, 0)] :: words 2 s.tickNo)
          (s.setMaster c 0x3FF).wr (F.CL_BCNSTAT.WINOPEN c) 0)

/-- WINDOW_CLOSE (R98): device time reaches S + W. -/
def execWindowClose (c : CellId) (s : State) : Outcome :=
  ready s fun s =>
    if s.flag (F.CL_BCNSTAT.WINOPEN c) then (s.advance (s.cell c).windowEnd).wr (F.CL_BCNSTAT.WINOPEN c) 0 else s

/-- RECEIVE_STORE (R191): the claim, or the record and the close. -/
def execReceiveStore (c : CellId) (part : Part) (s : State) : Outcome :=
  ready s fun s =>
    match s.servedPort c with
    | none => s
    | some n =>
      let s := if part = .close then s else s.beginStore c n
      if part = .claim then s else s.endStore c n

/-- RECEIVE_QUEUE_PUSH (R190): the words before the last, or the last. -/
def execReceiveQueuePush (c : RecordPush) (s : State) : Outcome :=
  ready s fun s =>
    let s := if c.part = .close then s else s.beginPush c.cell
    if c.part = .claim then s else s.endPush c.cell

/-- TRANSMIT_FETCH (R203): the claim, or the read of the record and the close. -/
def execTransmitFetch (c : CellId) (part : Part) (s : State) : Outcome :=
  ready s (State.onBus c fun n s =>
    if s.listens n then s
    else
      let s := if part = .close then s else s.beginFetch c n
      if part = .claim then s else s.endFetch c n)

/-- LISTEN_MODE_RESYNC (R163): 8 consecutive recessive bits, after which IFS begins. A protocol exception waits for 11
(R108). -/
def execListenModeResync (c : CellId) (s : State) : Outcome :=
  ready s fun s =>
    if (s.cell c).stopped && s.rd (F.CL_ERRCAP.TYPE c) ≠ 8 then s.modCell c fun C => { C with stopped := false, resynced := true } else s

end Sys2Proof.Machine
end

