-- ==== Sys2Proof/Machine/Boundary.lean ====
section
/-! DEFINITION. The tick boundary (R43, R55) and the frame boundary (R478): what each of them cuts, counts, and makes
live. -/

namespace Sys2Proof.Machine
namespace State

/-! ### The boundary cut (R55) -/

/-- An open phase is cut: the chip level counts a miss that it has not counted yet, and event 0x02 is written. The
remaining work is treated as SKIP. -/
def cutPhase (ph items : Nat) (counted : Bool) (miss : Field) (s : State) : State :=
  let s := if counted then s else (s.bump miss).missEvent 1 3 ph 2 0 s.tickNo items
  s.missEvent 2 3 ph 2 0 s.tickNo items

def cutCapture (s : State) : State :=
  let left := s.captureLeft
  let s := (s.cutPhase 0 left.length s.tick.missCap F.TK_MISS.CAPTURE).modTick fun u => { u with missCap := true }
  let s := each left (fun i => skipCapture i.1 i.2) s
  (each s.areasLeft skipArea s).wr F.TK_DONE_CAPTURE.DONE 0x3FFFFF

/-- MAP is cut in clk `k`: a knot whose write falls in or after that clk makes none (R257). -/
def cutMap (k : Nat) (s : State) : State :=
  let started := s.phase = 1
  let s := s.cutPhase 1 (if started then s.knotsLeft else s.knotTotal) s.tick.missMap F.TK_MISS.MAP
  let s := if started then s.landUpTo (k - 1) else s.modGw fun g => { g with lanes := [] }
  let s := s.modGw fun g => { g with inflight := [], lanes := g.lanes.map fun e => (e.1, { e.2 with todo := [], cur := none }) }
  let s := s.closeDigest true
  (if started then s.endShadow else s).wr F.TK_DONE_MAP.DONE 0x3FFFFF

/-- EMIT is cut: transfers that have claimed S0 go on (R201). -/
def cutEmit (s : State) : State :=
  let s := (s.cutPhase 2 (s.emitLeft.length + s.emitOpen.length) s.tick.missEmit F.TK_MISS.EMIT).modTick fun u =>
    { u with missEmit := true }
  let s := each s.emitLeft (fun i => dropEmit i.1 i.2 true) s
  let s := each s.emitOpen (fun i => modPort i.1 fun P => { P with xferCut := true }) s
  s.wr F.TK_DONE_EMIT.DONE 0x3FFFFF

/-- Every phase that is still open is cut in clk `k` (R43 step 1). Table 2-11 gives no item count for HOUSE: its event carries
1 (DESIGN CHOICE, log entry 106). -/
def cutPhases (k : Nat) (s : State) : State :=
  let ph := s.phase
  let s := onlyIf (ph == 0) (fun s => s.applyDue.cutCapture) s
  let s := if ph ≤ 1 then s.cutMap k else s
  let s := if ph ≤ 2 then s.cutEmit else s
  if ph = 3 && s.tick.closeDone then s else s.cutPhase 3 1 false F.TK_MISS.HOUSE

/-! ### Cell-level checks (R197, R199, R206, R352) -/

/-- The commit that goes live at this boundary. -/
def commitDue (s : State) : Option PendingCommit := s.engine.commit.bind fun p => if p.skip = 0 then some p else none

/-- A BUFFER_SET for the buffer goes live at this boundary. -/
def replaced (s : State) (n d : Nat) : Bool :=
  s.commitDue.isSome && (Sparse.find (s.stageWas.getD s.stage) (touchBuffer n d)).isSome

/-- EMIT of the tick that opens next makes no transfer of these ports (R52). -/
def holdNextEmit (l : List Nat) (s : State) : State :=
  s.modTick fun u => { u with holdNext := u.holdNext ++ l.filter (!u.holdNext.contains ·) }

/-- Cell-level misses of one phase pass up where a level escalates (R52): `blk` holds the count of each block. The late
work itself is over, so that counts, events and the chip fault follow; the HOLD of a CAPTURE miss acts on the EMIT of
the tick that opens, which is the first one after it (R53; log entry 94). -/
def escalate (ph : Nat) (blk : List Nat) (s : State) : State :=
  let cap := ph == 0
  let blkR := s.rd (if cap then F.TK_REACT.BLK_CAP else F.TK_REACT.BLK_EMIT)
  let rgnR := s.rd (if cap then F.TK_REACT.RGN_CAP else F.TK_REACT.RGN_EMIT)
  let chipR := s.rd (if cap then F.TK_REACT.CHIP_CAP else F.TK_REACT.CHIP_EMIT)
  let at' (b : Nat) : Nat := blk.getD b 0
  let rgn (g : Nat) : Nat := at' (3 * g) + at' (3 * g + 1) + at' (3 * g + 2)
  let total := blk.foldl (· + ·) 0
  let s := each (List.range 12) (fun b s => if at' b = 0 then s else
    (s.bump (if cap then F.BK_DLMISS.BLK_CAP b else F.BK_DLMISS.BLK_EMIT b) (at' b)).missEvent 1 1 ph blkR b s.tickNo (at' b)) s
  let s := onlyIf (cap && blkR == 1) (holdNextEmit (((List.range 12).filter fun b => at' b != 0).flatMap blockPorts)) s
  if blkR ≠ 3 || total = 0 then s
  else
    let s := each (List.range 4) (fun g s => if rgn g = 0 then s else
      (s.bump (if cap then F.RG_DLMISS.RGN_CAP g else F.RG_DLMISS.RGN_EMIT g) (rgn g)).missEvent 1 2 ph rgnR g s.tickNo (rgn g)) s
    let s := onlyIf (cap && rgnR == 1) (holdNextEmit (((List.range 4).filter fun g => rgn g != 0).flatMap regionPorts)) s
    if rgnR ≠ 3 then s
    else
      let counted := if cap then s.tick.missCap else s.tick.missEmit
      let s := if counted then s
        else (s.bump (if cap then F.TK_MISS.CAPTURE else F.TK_MISS.EMIT)).missEvent 1 3 ph chipR 0 s.tickNo total
      let s := s.modTick fun u => if cap then { u with missCap := true } else { u with missEmit := true }
      let s := onlyIf (cap && (chipR == 1 || chipR == 3)) (holdNextEmit (List.range 96)) s
      onlyIf (chipR == 3) raiseChip s

/-- The expected buffers of a port that had no store (Table 2-2, R197). -/
def captureMissed (s : State) (n : Nat) : List Nat :=
  if s.asleep n || !s.blockOn (n / 8) then []
  else (s.buffers n).filter fun d =>
    let D := s.desc n d
    D.isRx && D.xfer && D.expect && !s.replaced n d && !(s.port n).stored.contains d

/-- The buffers of a port that CAPTURE of the next tick transfers (R197). -/
def captureListed (s : State) (n : Nat) : List Nat :=
  if s.asleep n || !s.blockOn (n / 8) then []
  else (s.port n).stored.filter fun d => (s.desc n d).isRx && (s.desc n d).xfer && !s.replaced n d

/-- The pending buffers of a port with release at EMIT or at a tick offset that have not started (R206). -/
def emitUnsent (s : State) (n : Nat) : List Nat :=
  if s.asleep n || !s.blockOn (n / 8) then []
  else (s.port n).pend.filter fun d =>
    let m := (s.desc n d).relmode
    (m == 1 || m == 2) && !(s.port n).started.contains d

/-- A buffer with WDRAW is withdrawn at the boundary, counted and not reported (R206). -/
def withdrawQuiet (n d : Nat) (s : State) : State :=
  if (s.desc n d).expect then ((s.unpend n d).addLost n d).bump (F.CL_TXSTAT.WDCNT (s.servingCell n)) else s

/-- The cell-level checks of a port: its misses of CAPTURE and of EMIT. A CAPTURE miss that the boundary finds belongs
to the tick that closes (log entry 90). -/
def checkPort (n : Nat) (s : State) : State :=
  let b := n / 8
  let c := s.servingCell n
  let cap := s.captureMissed n
  let listed := s.captureListed n
  let unsent := s.emitUnsent n
  let s := if cap = [] then s
    else (s.bump (F.BK_DLMISS.CELL_CAP b) cap.length).missEvent 1 0 0 (s.rd F.TK_REACT.CELL_CAP) c s.tickNo cap.length
  let s := each cap (markUncertain n) s
  let s := if unsent = [] || s.quiet n then s
    else (s.bump (F.BK_DLMISS.CELL_EMIT b) unsent.length).missEvent 1 0 2 (s.rd F.TK_REACT.CELL_EMIT) c s.tickNo unsent.length
  let s := each unsent (withdrawQuiet n) s
  s.modPort n fun P => { P with listed := listed, stored := [] }

/-- The cell-level checks of every port, and what escalates from them. -/
def cellChecks (s : State) : State :=
  let ns := s.portsInUse
  let per (f : Nat → Nat) : List Nat := (List.range 12).map fun b => ((ns.filter fun n => n / 8 == b).map f).foldl (· + ·) 0
  let cap := per fun n => (s.captureMissed n).length
  let emit := per fun n => if s.quiet n then 0 else (s.emitUnsent n).length
  let s := each ns checkPort s
  let s := onlyIf (s.rd F.TK_REACT.CELL_CAP == 3) (escalate 0 cap) s
  onlyIf (s.rd F.TK_REACT.CELL_EMIT == 3) (escalate 2 emit) s

/-! ### Units at the boundary -/

/-- The commit goes live (R43, R396, R397, R404), or waits one boundary more (R375). A commit that a command of this clk has
begun takes its place with its lock (R44). -/
def commitBoundary (s : State) : State :=
  match s.engine.commit with
  | none => s
  | some p =>
    if p.skip ≠ 0 then s.modEngine fun g => { g with commit := some { p with skip := p.skip - 1 } }
    else
      let s := s.stageLive (s.tickNo + 1)
      let s := (s.modEngine fun g => { g with commit := g.next, next := none }).wr F.CE_STAT.LOCK (b2n s.engine.next.isSome)
      let s := s.post 0x01 0x01 0 (words 2 (s.tickNo + 1) ++ [p.seq * 2 ^ 6])
      each (p.slot :: p.others) (fun i s => (s.stepEntry i 2).closeEntry i 0) s

/-- Tick `n` is opened at device time `b` (R42, R43 step 3). CAPTURE starts in the next clk. -/
def openTick (b n : Nat) (s : State) : State :=
  let p := s.nextPeriod
  let s := (s.wr F.TK_TICKNO.TICKNO n).wr F.TK_STATUS.PHASE 0
  let s := s.modTick fun u =>
    { u with boundary := b, boundaryClk := u.clk - (u.time - b), crossed := none, period := p, stepTo := none, phaseFrom := u.clk - (u.time - b) + 1
             closeDone := false, mapSkipped := false, missCap := false, missMap := false, missEmit := false
             holdPorts := u.holdNext, holdNext := []
             holdTicks := if s.rd F.TK_STATUS.STATE = 4 then u.holdTicks + 1 else u.holdTicks }
  let s := s.modTick fun u => { u with tickWord := if s.flag F.TK_CTRL.OUT_EN then s.outWord else [] }
  { s with once := [], stageWas := none }

/-- The lists of host writes change over (R242), that of the boundary clk with them; a standby waits for the list-close mark of the tick (R375). From the first
boundary of a resynchronization on, a standby marks the dwords that are written, until the snapshot is complete (R378). -/
def turnLists (s : State) : State :=
  let next := s.tickNo + 1
  let marks := s.isStandby && s.flag F.SP_PSTAT.RESYNC && s.pair.snapTicks.isNone
  let s := s.modGw fun g => { g with wrote := [], marked := if g.marking then g.marked else [], marking := marks }
  let (due, later) := s.pair.ahead.partition fun e => e.1 ≤ next
  let waits := s.isStandby && s.linkUp
  let s := (s.modGw fun g =>
    { g with applying := g.applying ++ g.collecting, collecting := due.map (·.2) ++ g.late, late := [] }).modPair
    fun p => { p with ahead := later, listClose := !waits }
  if waits then s else s.applyFrom (s.tick.boundaryClk + 1)

/-- A cell at the boundary: clash and band memories, beacon, pacing, recovery delay, rate search (R94, R100, R158,
R164, R168). -/
def cellBoundary (c : Nat) (s : State) : State :=
  let C := s.cell c
  let s := match C.bandFirst with
    | some (org, pri, t) => s.postAt t 0x03 0x01 c [pack [(org, 8), (c, 0)], pri, min C.bandCount (2 ^ 18 - 1)]
    | none => s
  let s := onlyIf C.beaconReady (·.bump (F.CL_NATCNT.BCNDROP c)) s
  let off := s.conf c == 3 && decide (C.offAt < s.tick.boundaryClk)
  let dwell := s.searching c
  s.modCell c fun C =>
    { C with clash := [], clashSeen := [], bandFirst := none, bandCount := 0, beaconReady := false, beaconDone := false
             paced := false
             recDelay := if off then C.recDelay + 1 else C.recDelay
             arDwell := if dwell then C.arDwell + 1 else C.arDwell }

/-- Bus load of the tick that has closed (R453): `p` is its length in clk. -/
def loadBoundary (n p : Nat) (s : State) : State :=
  let P := s.port n
  let busy := P.busyAcc + (match P.busySince with | some t => s.clk - t | none => 0)
  let load := if P.sleptTick || s.asleep n then 0 else min (busy * 1000 / p) 1000
  let s := s.wr (F.SYS_BUSLOAD.LOAD n) load
  let s := onlyIf (s.rd (F.SYS_BUSLOAD.PEAK n) < load) (peak (F.SYS_BUSLOAD.PEAK n) load) s
  s.modPort n fun P =>
    { P with busyAcc := 0, busySince := P.busySince.map fun _ => s.clk, sleptTick := s.asleep n }

/-- A change of power state waits for the frame boundary; on an idle bus it is made at once (log entry 20). -/
def idlePower (n : Nat) (s : State) : State := if (s.port n).powerNext.isSome && s.busIdle n then s.changePower n else s

/-- A port at the boundary: its sleep round, EMIT work, the buffers started, and sleep without a round (R206, R333,
R336). An attempt on the bus counts as a start of its buffer in the tick that opens, also where a BUFFER_SET has replaced
the descriptor since it began (DESIGN CHOICE, log entry 115). -/
def portBoundary (n : Nat) (s : State) : State :=
  let s := s.roundBoundary n
  let on := match (s.cell (s.servingCell n)).attempt with | some a => a.frame.buf.toList | none => []
  let s := s.modPort n fun P => { P with started := on, emitDue := [], relDue := [], emitHeld := [] }
  let s := onlyIf (s.blockOn (n / 8)) (emitWork n) s
  let due := (s.port n).sleepIn
  let s := s.modPort n fun P =>
    { P with sleepIn := due - 1, powerNext := P.powerNext <|> (if due = 1 then some (s.rd (F.PW_PCFG.SLEEPST n)) else none) }
  s.idlePower n

/-- The bindings take up the tick that opens (R270, R276). `stored`: the ports' receive buffers with a store. -/
def bindsBoundary (stored : List (Nat × Nat)) (s : State) : State :=
  each s.bindings (fun i s => let b := s.binding i; s.bindBoundary i (stored.contains (b.port, b.rbuf))) s

/-- The port power states that the active device reports go live on the standby (R372). -/
def partnerPower (s : State) : State :=
  let l := s.pair.ports
  each l (fun e s => s.powerLive e.1 e.2 s.tickNo) (s.modPair fun p => { p with ports := [] })

/-- Counters of the pair and of the bridge that grow at each boundary (R302, R308, R378). -/
def countBoundary (s : State) : State :=
  let s := s.modPair fun p => { p with snapTicks := p.snapTicks.map (· + 1) }
  let s := s.modBridge fun b => { b with windows := b.windows.map fun e =>
    (e.1, { e.2 with polled := false, buf := e.2.buf.map fun x => (x.1, x.2 + 1) }) }
  let s := s.modBridge fun b => { b with windows := b.windows.filter fun e => e.2 != {} }
  s.modEngine fun g => { g with waiting := g.waiting.map fun w => { w with boundaries := w.boundaries + 1 } }

/-- The tick mark and the health traffic of the tick that opens go out over the tether (Table 13-7). -/
def sendTick (s : State) : State :=
  (s.send (.mark (s.tick.boundary % 2 ^ 54) s.tickNo s.tick.period)).sendHealth (List.range 96) true

/-- The boundary that opens the next tick (R43): its device time is that of the first clk at or past B + P (R42). The events of
the bindings carry the number of the tick that it opens (DESIGN CHOICE, log entry 116). -/
def boundary (s : State) : State :=
  let num := s.tickNo + 1
  let s := (s.advance s.nextBoundary).rewakes
  let t := s.tick.crossed.getD s.nextBoundary
  let k := s.clk - (s.tick.time - t)
  let len := k - s.tick.boundaryClk
  let stored := s.ports.flatMap fun e => (e.2.stored ++ (s.buffers e.1).filter (s.replaced e.1 ·)).map (e.1, ·)
  let s := (s.cutPhases k).cellChecks
  let s := s.commitBoundary
  let s := (s.openTick t num).turnLists
  let s := onlyIf (s.lanesWithout != []) raiseChip s
  let s := each (List.range 108) cellBoundary s
  let s := s.partnerPower
  let s := each (List.range 96) (fun n s => (s.loadBoundary n len).portBoundary n) s
  let s := s.bindsBoundary stored
  let s := each (List.range 12) (fun b s => (s.evaluateRotation b).moveRotation b) s
  s.countBoundary.countHealth.dueSwitch.sendTick

/-! ### The frame boundary (R478) -/

/-- A new role applies to a port (R380); a port that is QUIET no longer leaves listen mode. -/
def applyRole (n : Nat) (s : State) : State := (s.modPort n fun P => { P with roleChange := false }).endListening n

/-- The bus of a port becomes idle, and every change that waits for it is made. A frame whose SOF falls in this clk is
received under the new state. -/
def frameBoundary (n : Nat) (s : State) : State :=
  let c := s.servingCell n
  let fresh := (s.cell c).rxSof == some (s.tick.time - 2)
  let s := if fresh then s else s.closeBusy n
  let s := s.modCell c fun C => { C with
    flag := [], stopped := false, sentLast := false, resynced := false, rxSof := if fresh then C.rxSof else none }
  let s := s.applyTiming n
  let s := (s.changePower n).applyRole n
  ((s.switchRoute n).settlePort n).moveMirror n

end State

/-! ### The commands -/

/-- FRAME_BOUNDARY (R478): the bus of the port is idle. -/
def execFrameBoundary (p : PortId) (s : State) : Outcome := ready s (·.frameBoundary p)

end Sys2Proof.Machine
end

