-- ==== Sys2Proof/Machine/Commit.lean ====
section
/-! DEFINITION. What COMMIT checks (Table 14-5): each check takes the device as it would be with every staging copy
live, and names the lowest unit that fails. -/

namespace Sys2Proof.Machine

/-- The conditions of Table 5-2 for a nominal and a data timing, laid out as CL_NBT and CL_DBT (R128). -/
def timingOk (compat : Bool) (nbt dbt : Nat) : Bool :=
  let brp := bitsOf nbt 27 22 + 1
  let t1 := bitsOf nbt 21 14 + 1
  let t2 := bitsOf nbt 13 7 + 1
  let sjw := bitsOf nbt 6 0 + 1
  let brpD := bitsOf dbt 17 13 + 1
  let t1D := bitsOf dbt 12 8 + 1
  let t2D := bitsOf dbt 7 4 + 1
  let sjwD := bitsOf dbt 3 0 + 1
  let n := nominalClk nbt
  let d := dataClk dbt
  8 ≤ 1 + t1 + t2 && sjw ≤ t2 && sjw ≤ t1 && 3 ≤ brp * t2 &&
    5 ≤ 1 + t1D + t2D && sjwD ≤ t2D && sjwD ≤ t1D && 2 ≤ brpD * t2D &&
    (if compat then 200 ≤ n && n ≤ 20000 && 25 ≤ d && d ≤ n else 100 ≤ n && n ≤ 1600 && 10 ≤ d && d ≤ n)

/-- Two areas, each a first place and a length, have a place in common. -/
def meets (a b : Nat × Nat) : Bool := a.1 < b.1 + b.2 && b.1 < a.1 + a.2 && a.2 != 0 && b.2 != 0

namespace State

/-- The port is in compatibility mode by its live setting. -/
def compatSet (s : State) (n : Nat) : Bool := s.flag (F.CL_OPMODE.PROTO (home n))

/-- CL_NBT and CL_DBT of a port as their registers hold them. -/
def nbtOf (s : State) (n : Nat) : Nat :=
  let c := home n
  pack [(s.rd (F.CL_NBT.BRP c), 22), (s.rd (F.CL_NBT.TSEG1 c), 14), (s.rd (F.CL_NBT.TSEG2 c), 7), (s.rd (F.CL_NBT.SJW c), 0)]
def dbtOf (s : State) (n : Nat) : Nat :=
  let c := home n
  pack [(s.rd (F.CL_DBT.BRP_D c), 13), (s.rd (F.CL_DBT.TSEG1_D c), 8), (s.rd (F.CL_DBT.TSEG2_D c), 4), (s.rd (F.CL_DBT.SJW_D c), 0)]

/-- Check 0x01 (R47). -/
def checkTick (s : State) : Option Nat := if s.periodOk (s.rd F.TK_PERIOD.PERIOD) then none else some 0

/-- Check 0x02 (R118). -/
def checkSource (s : State) : Option Nat :=
  let n := s.rd F.TK_SRC.PORT
  if s.rd F.TK_SRC.SRC = 3 && s.compatSet n then some n else none

/-- Check 0x03 (R128, R150). -/
def checkTiming (s : State) : Option Nat :=
  (List.range 96).find? fun n =>
    let m := s.compatSet n
    !(timingOk m (s.nbtOf n) (s.dbtOf n) && (List.range 16).all fun k =>
      !s.flag (F.CL_ARCANDN.VALID (home n) k) ||
        timingOk m (s.rd (F.CL_ARCANDN.NBT (home n) k)) (s.rd (F.CL_ARCANDD.DBT (home n) k)))

/-- The record area of a buffer in granules: one record, or two with SHADOW (R181). -/
def recordArea (s : State) (n d : Nat) : Nat × Nat :=
  let D := s.desc n d
  (D.dataptr, if D.isRx && D.shadow then 2 * D.recg else D.recg)

/-- The buffers of a port whose descriptor is checked. -/
def usedBuffers (s : State) (n : Nat) : List Nat := (s.buffers n).filter fun d => (s.desc n d).isRx || (s.desc n d).isTx

/-- The record areas of a block with the port and buffer of each. -/
def recordAreas (s : State) (b : Nat) : List ((Nat × Nat) × Nat × Nat) :=
  (List.range 8).flatMap fun k => (s.usedBuffers (8 * b + k)).map fun d => ((8 * b + k, d), s.recordArea (8 * b + k) d)

/-- The areas of the enabled queues of a block in granules, with the QID of each (R216). -/
def queueAreas (s : State) (b : Nat) : List (Nat × Nat × Nat) :=
  (((List.range 36).map (36 * b + ·)).filter fun q => q % 4 != 3 && s.flag (F.QCFG.EN q)).map fun q =>
    (q, s.rd (F.QCFG.BASE q), 128)

/-- A descriptor meets the conditions of R182 by itself. -/
def descOk (s : State) (n d : Nat) : Bool :=
  let D := s.desc n d
  let a := s.recordArea n d
  0x900 ≤ a.1 && a.1 + a.2 ≤ 0x2000 &&
    (!D.xfer || (1 ≤ D.xlen && D.xlen ≤ min 32 D.capacity && D.img + D.xlen ≤ 65536)) &&
    (!(D.isRx && D.expect) || D.xfer)

/-- A filter meets the conditions of R182. -/
def filtOk (s : State) (n f : Nat) : Bool :=
  let m := s.filtMode n f
  m == 0 ||
    ((s.filtDtype n f != 0 || (s.desc n (s.filtBuf n f)).isRx) && (m != 3 || s.filtA n f ≤ s.filtB n f) &&
      (s.compatSet n || (s.filtA n f ≤ 0x7FFFFF && (m == 1 || s.filtB n f ≤ 0x7FFFFF))))

/-- Check 0x04 (R182). -/
def checkTables (s : State) : Option Nat :=
  (List.range 96).find? fun n =>
    let us := s.usedBuffers n
    let recs := if us = [] then [] else s.recordAreas (n / 8)
    let qs := if us = [] then [] else s.queueAreas (n / 8)
    !(us.all (fun d => s.descOk n d && (recs.all fun e => e.1 == (n, d) || !meets e.2 (s.recordArea n d)) &&
        qs.all fun e => !meets e.2 (s.recordArea n d)) && (s.filters n).all (s.filtOk n))

/-- Check 0x05 (R215, R216). -/
def checkQueues (s : State) : Option Nat :=
  (List.range 108).find? fun set =>
    let areas := s.queueAreas (set / 9)
    (areas.filter fun e => e.1 / 4 == set).any fun e =>
      (set % 9 == 8 && e.1 % 4 != 0) || e.2.1 < 0x900 || 0x1F80 < e.2.1 || areas.any fun x => x.1 != e.1 && meets x.2 e.2

/-- Check 0x06 (R217). -/
def checkBulk (s : State) : Option Nat :=
  let bind (n : Nat) : Nat := s.rd (F.QCFG.BIND (0x200 + n))
  (List.range 4).find? fun n => bind n != 0 && (List.range n).any fun m => bind m == bind n

/-- Check 0x07 (R253, R254). -/
def checkKnots (s : State) : Option Nat :=
  match s.enabledLists.find? fun n => s.rd (F.GW_LISTHEAD.COUNT n) == 0 with
  | some n => some n
  | none =>
    let w := s.rd F.TK_DL_MAP.OFFSET - s.rd F.TK_DL_CAPTURE.OFFSET - 1000
    if 8 * w < s.knotTotal || w < s.schedLength then some 0xFFF else none

/-- The buffers of its port that a binding names (Table 10-1). -/
def bindBuffers (b : Binding) : List Nat :=
  b.rbuf :: ((if b.cben then [b.cbuf] else []) ++ (if b.hen then [b.htbuf, b.hrbuf] else []))

/-- The capture areas of every receive buffer with XFER = 1, in words of the captured half. -/
def captureAreas (s : State) : List (Nat × Nat) :=
  (List.range 96).flatMap fun n => ((s.buffers n).filter fun d => (s.desc n d).isRx && (s.desc n d).xfer).map fun d =>
    ((s.desc n d).img, (s.desc n d).xlen)

/-- A policy entry that a live binding may name: CLEAR is not 0, and no action is reserved (Tables 10-4, 10-5). -/
def policyOk (s : State) (p : Nat) : Bool := s.policyClear p != 0 && (List.range 16).all fun c => s.policyAction p c ≤ 5

/-- A live binding meets the conditions of R268 by itself. -/
def bindOk (s : State) (b : Binding) : Bool :=
  let d (x : Nat) : Desc := s.desc b.port x
  !s.compatSet b.port && b.prof ≤ 4 && (d b.rbuf).isRx && (d b.rbuf).xfer &&
    (!b.cben || ((d b.cbuf).isTx && (d b.cbuf).xfer && ((d b.cbuf).relmode == 1 || (d b.cbuf).relmode == 2) &&
      (d b.cbuf).xlen == b.commandLen)) &&
    (!b.hen || ((d b.htbuf).isTx && (d b.htbuf).relmode == 0 && !(d b.htbuf).xfer && (d b.hrbuf).isRx && b.htmo != 0)) &&
    decide (bindBuffers b).Nodup && b.parea + b.areaWords ≤ 65536 && s.policyOk b.policy

/-- Check 0x08 (R268). The sum of the area sizes fails every live binding, so the lowest is named. -/
def checkBinds (s : State) : Option Nat :=
  let is := s.bindings
  let all := is.map fun i => (i, s.binding i)
  let area := all.foldl (fun a e => a + e.2.areaWords) 0
  let sumOk := 464 + (area + 7) / 8 ≤ s.rd F.TK_DL_CAPTURE.OFFSET
  let caps := if is = [] then [] else s.captureAreas
  is.find? fun i =>
    let b := s.binding i
    let mine := (b.parea, b.areaWords)
    !(sumOk && s.bindOk b && (caps.all fun a => !meets a mine) && all.all fun e =>
      e.1 == i || ((e.2.port != b.port || (e.2.org != b.org && (bindBuffers e.2).all fun x => !(bindBuffers b).contains x)) &&
        !meets (e.2.parea, e.2.areaWords) mine))

/-- A window meets the conditions of R291. -/
def windowOk (s : State) (w : Nat) : Bool :=
  let size := s.rd (F.SB_WRANGE.SIZE w)
  !s.winLive w ||
    (s.flag (F.SB_PBUF.EN (s.winPort w)) && s.winOrg w != 0x3FF && 1 ≤ size && s.rd (F.SB_WBASE.BASE w) + size ≤ 2 ^ 24 &&
      (s.rd (F.SB_WPOLL.PINT w) == 0 || s.rd (F.SB_WPOLL.POFS w) < size))

/-- SB_PBUFn meets the conditions of R291. -/
def pbufOk (s : State) (n : Nat) : Bool :=
  let rx := s.rd (F.SB_PBUF.SRXBUF n)
  let ot := s.rd (F.SB_PBUF.OTXBUF n)
  let it := s.rd (F.SB_PBUF.ITXBUF n)
  let plainTx (d : Nat) : Bool := (s.desc n d).isTx && (s.desc n d).relmode == 0 && !(s.desc n d).xfer
  let bound := ((s.bindings.map s.binding).filter fun b => b.port == n).flatMap bindBuffers
  (!s.flag (F.SB_PBUF.IEN n) || s.flag (F.SB_PBUF.EN n)) &&
    (!s.flag (F.SB_PBUF.EN n) ||
      (!s.compatSet n && (s.desc n rx).isRx && !(s.desc n rx).xfer && !(s.desc n rx).shadow && plainTx ot && plainTx it &&
        decide [rx, ot, it].Nodup && [rx, ot, it].all fun d => !bound.contains d))

/-- Check 0x09 (R291). -/
def checkSplice (s : State) : Option Nat :=
  match (List.range 16).find? fun w => !s.windowOk w with
  | some w => some w
  | none => ((List.range 96).find? fun n => !s.pbufOk n).map (0x100 + ·)

/-- Check 0x0A (R371, R375). The deadline and a PAIRXOR of 0 are named by unit 0. -/
def checkPair (s : State) : Option Nat :=
  let x := s.rd F.SP_PAIR.PAIRXOR
  if !s.flag F.SP_PAIR.EN then none
  else if x = 0 || s.rd F.TK_DL_CAPTURE.OFFSET < 600 then some 0
  else (List.range 96).find? fun n =>
    let o := s.rd (F.CL_NATIVE.ORIGIN (home n))
    !s.compatSet n && o != 0x3FF && o ^^^ x == 0x3FF

/-- Check 0x0B (R477). -/
def checkTimers (s : State) : Option Nat :=
  (List.range 96).find? fun n => s.flag (F.PW_WTIMER.TMEN n) && s.rd (F.PW_WTIMER.MS n) == 0

/-- The checks of Table 14-5 in the order of their codes. -/
def commitChecks : List (Nat × (State → Option Nat)) :=
  [(0x01, checkTick), (0x02, checkSource), (0x03, checkTiming), (0x04, checkTables), (0x05, checkQueues), (0x06, checkBulk),
   (0x07, checkKnots), (0x08, checkBinds), (0x09, checkSplice), (0x0A, checkPair), (0x0B, checkTimers)]

/-- The first check that fails, with its unit (R396). -/
def commitFails (s : State) : Option (Nat × Nat) :=
  commitChecks.findSome? fun e => (e.2 s.future).map fun u => (e.1, u)

end State
end Sys2Proof.Machine
end

