-- ==== Sys2Proof/Machine/Commands.lean ====
section
/-! DEFINITION. The commands of Table 14-4 but those of the spares, the pair and the remote bridge: identification,
configuration, queues, the knot and scale tables, COMMIT and ABANDON (chapter 14). -/

namespace Sys2Proof.Machine

/-! ### Argument forms (Tables 14-4 and 14-6) -/

/-- LEN is one number. -/
def lenIs (n : Nat) (a : List Nat) : Bool := a.length == n

/-- LEN is `base` and a whole number of items of `step` words, 1 to `most` of them. -/
def lenItems (base step most : Nat) (a : List Nat) : Bool :=
  base < a.length && (a.length - base) % step == 0 && (a.length - base) / step ≤ most

/-- LEN of a register block whose SEL is word `i`, of up to `n` registers. -/
def lenBlock (i n : Nat) (a : List Nat) : Bool :=
  let p := (Operand.bits (Operand.word a i) 18).length
  1 ≤ p && p ≤ n && a.length == i - 1 + 2 * p

/-- The register block that starts with SEL in word `i`: every bit of SEL names a register of `rs`, and no st field is
reserved (R401, R14). -/
def blockOk (rs : List Reg) (i : Nat) (a : List Nat) : Bool :=
  Operand.selOk (Operand.word a i) rs.length &&
    (Operand.block a i rs.length).all fun e => Reg.legal (rs.getD e.1 []) e.2

/-- The words of entry `j` of a list of entries of `n` words that starts at word `i`. -/
def entryOf (a : List Nat) (i n j : Nat) : List Nat := (a.drop (i - 2 + n * j)).take n

/-- GROUP of NET_SLEEP and NET_WAKE: 0 to 31, or 0x3F. -/
def groupArg (a : List Nat) : Nat := bitsOf (Operand.item a) 5 0

namespace State

/-- Stages the st fields of a register block. -/
def stageBlock (rs : List Reg) (i : Nat) (a : List Nat) (s : State) : State :=
  each (Operand.block a i rs.length) (fun e s => s.stageReg (rs.getD e.1 []) e.2) s

/-- Stages the words of a table entry whose words have consecutive keys. -/
def stageWords (key : Nat) (ws : List Nat) (s : State) : State :=
  each ((List.range ws.length).zip ws) (fun e s => s.stageK (key + e.1) e.2) s

/-- A staging command that has staged its values (R388). -/
def stagedOut (s : State) : CmdOut := .done 0x01 [] 1 s

/-- An immediate command with no result words. -/
def doneOut (s : State) : CmdOut := .done 0x00 [] 1 s

end State

/-! ### Identification -/

/-- NOP. -/
def cmdNop : CmdSpec where
  opcode := 0x01
  lenOk := lenIs 0
  effect _ s := s.doneOut

/-- IDENT: its six result words (Table 14-7). -/
def cmdIdent : CmdSpec where
  opcode := 0x02
  lenOk := lenIs 0
  effect _ s := .done 0 [Config.deviceCode, Config.stepping, Config.romVersion % 2 ^ 18, s.rd F.CE_PATCH.PID,
    s.rd F.SYS_SYSADDR.SYSADDR, pack [(s.rd F.SP_PSTAT.ROLE, 1), (s.rd F.SP_PSTAT.SENIOR, 0)]] 1 s

/-- An opcode that Table 14-4 does not list (R389). -/
def cmdUnlisted (op : Nat) : CmdSpec where
  opcode := op
  listed := false
  lenOk _ := true
  effect _ s := s.doneOut

/-! ### Ports -/

/-- The registers of PORT_CONFIG, in the order of SEL. -/
def configRegs (c : Nat) : List Reg := [R.CL_NATIVE c, R.CL_BEACON c, R.CL_COMPAT c, R.CL_ERRCTRL c, R.CL_CLASHCTL c]

/-- PORT_CONFIG. -/
def cmdPortConfig : CmdSpec where
  opcode := 0x10
  lenOk := lenBlock 3 5
  argsOk _ a := Operand.portOk a && Operand.item a == 0 && blockOk (configRegs (State.home (Operand.port a))) 3 a
  journal := true
  staging := true
  forwarded := true
  effect p s :=
    let a := Operand.args p
    (s.stageBlock (configRegs (State.home (Operand.port a))) 3 a).stagedOut

/-- PORT_MODE: ITEM [2:1] TEST, [0] PROTO. -/
def cmdPortMode : CmdSpec where
  opcode := 0x11
  lenOk := lenIs 1
  argsOk _ a := Operand.portOk a && Reg.legal (R.CL_OPMODE (State.home (Operand.port a))) (bitsOf (Operand.item a) 2 0)
  journal := true
  staging := true
  forwarded := true
  effect p s :=
    let a := Operand.args p
    (s.stageReg (R.CL_OPMODE (State.home (Operand.port a))) (bitsOf (Operand.item a) 2 0)).stagedOut

/-- The registers of PORT_TIMING for candidate `k`, in the order of SEL. -/
def timingRegs (c k : Nat) : List Reg :=
  [R.CL_NBT c, R.CL_DBT c, R.CL_TDC c, R.CL_ARCTRL c, R.CL_ARCANDN c k, R.CL_ARCANDD c k]

/-- PORT_TIMING. -/
def cmdPortTiming : CmdSpec where
  opcode := 0x12
  lenOk := lenBlock 3 6
  argsOk _ a := Operand.port a < 96 && blockOk (timingRegs (State.home (Operand.port a)) (Operand.cand a)) 3 a
  journal := true
  staging := true
  forwarded := true
  effect p s :=
    let a := Operand.args p
    (s.stageBlock (timingRegs (State.home (Operand.port a)) (Operand.cand a)) 3 a).stagedOut

/-- PORT_AUTORATE with STOP = 0 (R143): a search starts on a listening, not searching cell of a port in ACTIVE or QUIET.
A cell listens that behaves so on its bus, as on every QUIET port (log entry 93). -/
def State.startSearch (n : Nat) (s : State) : CmdOut :=
  let c := s.servingCell n
  if s.listens n && s.portState n < 2 && !s.searching c then (s.rateStart c).doneOut else .done 0x09 [] 0 s

/-- PORT_AUTORATE: ITEM [0] STOP (R143, R402). -/
def cmdPortAutorate : CmdSpec where
  opcode := 0x13
  lenOk := lenIs 1
  argsOk _ a := Operand.portOk a
  effect p s :=
    let a := Operand.args p
    let n := Operand.port a
    let s := s.rewakes
    if bitOf (Operand.item a) 0 then (s.rateAbort (s.servingCell n)).doneOut else s.startSearch n

/-- PORT_RECOVER (R158, R160). -/
def cmdPortRecover : CmdSpec where
  opcode := 0x14
  lenOk := lenIs 1
  argsOk _ a := Operand.portOk a && Operand.item a == 0
  effect p s := (s.releaseCell (s.servingCell (Operand.port (Operand.args p)))).doneOut

/-! ### Filters and buffers -/

/-- The words of a filter entry with its reserved bits 0 (Table 7-6, R13). -/
def filterWords (l : List Nat) : List Nat :=
  [bitsOf (l.getD 0 0) 17 7 * 2 ^ 7, 0, l.getD 2 0, bitsOf (l.getD 3 0) 13 0, l.getD 4 0, bitsOf (l.getD 5 0) 13 0]

/-- FILTER_SET: BUF is 0 but for DTYPE 0x0 (Table 7-6). -/
def cmdFilterSet : CmdSpec where
  opcode := 0x18
  lenOk := lenIs 7
  argsOk _ a := Operand.portOk a && Operand.item a < 64 &&
    (bitsOf (Operand.word a 3) 15 14 == 0 || bitsOf (Operand.word a 3) 13 7 == 0)
  journal := true
  staging := true
  forwarded := true
  effect p s :=
    let a := Operand.args p
    (s.stageWords (filtKey (Operand.port a) (Operand.item a) 0) (filterWords (entryOf a 3 6 0))).stagedOut

/-- The words of a descriptor with its reserved bits 0 (Table 7-2, R13). -/
def descWords (l : List Nat) : List Nat :=
  [bitsOf (l.getD 0 0) 17 8 * 2 ^ 8 + bitsOf (l.getD 0 0) 5 0, l.getD 1 0, bitsOf (l.getD 2 0) 15 0, bitsOf (l.getD 3 0) 16 0]

/-- BUFFER_SET (R181, R184, R207). -/
def cmdBufferSet : CmdSpec where
  opcode := 0x19
  lenOk := lenIs 5
  argsOk _ a := Operand.portOk a && Desc.wordsOk (Operand.word a 3) (Operand.word a 4) (Operand.word a 5) (Operand.word a 6)
  journal := true
  staging := true
  forwarded := true
  effect p s :=
    let a := Operand.args p
    let n := Operand.port a
    let d := Operand.item a
    ((s.stageWords (descKey n d 0) (descWords (entryOf a 3 4 0))).stageK (touchBuffer n d) 1).stagedOut

/-- BUFFER_RELEASE (R402). -/
def cmdBufferRelease : CmdSpec where
  opcode := 0x1A
  lenOk := lenIs 1
  argsOk _ a := Operand.portOk a
  forwarded := true
  effect p s :=
    let a := Operand.args p
    let n := Operand.port a
    let d := Operand.item a
    if (s.desc n d).isTx then (s.rewakes.hostRelease n d).doneOut else .done 0x09 [] 0 s

/-! ### Queues -/

/-- QID of a queue command. -/
def qidArg (a : List Nat) : Nat := bitsOf (Operand.word a 2) 9 0

/-- QCFG and QWM of a queue, with the fields that its class has (Table 8-10e). -/
def queueRegs (q : Nat) : List Reg := [(R.QCFG q).filter State.classHas, R.QWM q]

/-- QUEUE_CONFIG: every queue takes it (R401). -/
def cmdQueueConfig : CmdSpec where
  opcode := 0x20
  lenOk := lenIs 5
  argsOk _ a := queueExists (qidArg a) && Reg.legal ((queueRegs (qidArg a)).getD 0 []) (Operand.dword a 3) &&
    Reg.legal (R.QWM (qidArg a)) (Operand.dword a 5)
  journal := true
  staging := true
  forwarded := true
  effect p s :=
    let a := Operand.args p
    let q := qidArg a
    ((s.stageReg ((queueRegs q).getD 0 []) (Operand.dword a 3)).stageReg (R.QWM q) (Operand.dword a 5)).stagedOut

/-- QUEUE_CREDIT (R221). -/
def cmdQueueCredit : CmdSpec where
  opcode := 0x21
  lenOk := lenIs 2
  argsOk _ a := queueExists (qidArg a) && 72 ≤ bitsOf (Operand.word a 3) 15 0 &&
    bitsOf (Operand.word a 3) 15 0 ≤ queueCap (qidArg a)
  journal := true
  forwarded := true
  effect p s :=
    let a := Operand.args p
    (s.wr (F.QCTL.CEIL (qidArg a)) (bitsOf (Operand.word a 3) 15 0)).doneOut

/-- The queues that QUEUE_DROP accepts: RQ0, RQ1 and the bulk queues bound to the host (R232). -/
def State.dropOk (s : State) (q : Nat) : Bool :=
  queueExists q && (if q < 0x1B0 then q % 4 ≤ 1
    else isBulk q && (s.rd (F.QCFG.BIND q) == 1 || s.rd (F.QCFG.BIND q) == 3 || s.rd (F.QCFG.BIND q) == 5))

/-- QUEUE_DROP (R232). -/
def cmdQueueDrop : CmdSpec where
  opcode := 0x22
  lenOk := lenIs 1
  argsOk s a := s.dropOk (qidArg a)
  effect p s :=
    let r := s.dropPacket (qidArg (Operand.args p))
    .done 0 [r.1 % 2 ^ 13] 1 r.2

/-! ### Knots, lists and scale entries -/

/-- First knot of KNOT_WRITE. -/
def knotArg (a : List Nat) : Nat := bitsOf (Operand.word a 2) 15 0

/-- Knot `j` of a KNOT_WRITE. -/
def knotOf (a : List Nat) (j : Nat) : KnotWords :=
  let l := entryOf a 3 4 j
  ⟨l.getD 0 0, l.getD 1 0, l.getD 2 0, l.getD 3 0⟩

/-- Writes one knot. -/
def State.putKnot (k : Nat) (w : KnotWords) (s : State) : State :=
  (((s.wrKnot k 0 (wordOf w.w0)).wrKnot k 1 (wordOf w.w1)).wrKnot k 2 (wordOf w.w2)).wrKnot k 3 (wordOf w.w3)

/-- KNOT_WRITE (R260, R401). -/
def cmdKnotWrite : CmdSpec where
  opcode := 0x30
  lenOk := lenItems 1 4 15
  argsOk _ a := knotArg a + (a.length - 1) / 4 ≤ 65536 && (List.range ((a.length - 1) / 4)).all fun j => (knotOf a j).valid
  journal := true
  span := true
  forwarded := true
  effect p s :=
    let a := Operand.args p
    (each (List.range ((a.length - 1) / 4)) (fun j s => s.putKnot (knotArg a + j) (knotOf a j)) s).doneOut

/-- The value that item `j` of KNOT_LIST_SET gives GW_LISTHEAD, and its list (Table 14-6). -/
def headItem (a : List Nat) (j : Nat) : Nat × Nat :=
  let l := entryOf a 2 4 j
  (bitsOf (l.getD 0 0) 9 0,
    pack [(bitsOf (l.getD 3 0) 2 0, 33), (bitsOf (l.getD 2 0) 14 0, 18), (bitsOf (l.getD 2 0) 17 17, 17), (bitsOf (l.getD 1 0) 15 0, 0)])

/-- KNOT_LIST_SET: EN = 1 with COUNT 0 is reserved (R253). -/
def cmdKnotListSet : CmdSpec where
  opcode := 0x31
  lenOk := lenItems 0 4 15
  argsOk _ a := (List.range (a.length / 4)).all fun j =>
    let v := (headItem a j).2
    !(bitOf v 17 && bitsOf v 32 18 == 0)
  journal := true
  staging := true
  forwarded := true
  effect p s :=
    let a := Operand.args p
    (each (List.range (a.length / 4)) (fun j s => s.stageReg (R.GW_LISTHEAD (headItem a j).1) (headItem a j).2) s).stagedOut

/-- First entry of SCALE_WRITE. -/
def scaleArg (a : List Nat) : Nat := bitsOf (Operand.word a 2) 11 0

/-- Writes one scale entry. -/
def State.putScale (e : Nat) (l : List Nat) (s : State) : State :=
  ((s.wrScale e 0 (wordOf (l.getD 0 0))).wrScale e 1 (wordOf (l.getD 1 0))).wrScale e 2 (wordOf (l.getD 2 0))

/-- SCALE_WRITE (R260, R401). -/
def cmdScaleWrite : CmdSpec where
  opcode := 0x32
  lenOk := lenItems 1 3 20
  argsOk _ a := scaleArg a + (a.length - 1) / 3 ≤ 4096
  journal := true
  span := true
  forwarded := true
  effect p s :=
    let a := Operand.args p
    (each (List.range ((a.length - 1) / 3)) (fun j s => s.putScale (scaleArg a + j) (entryOf a 3 3 j)) s).doneOut

/-! ### Profiles -/

/-- Word `i` of the entry of a PROFILE_BIND, its reserved bits 0. -/
def bindWord (a : List Nat) (i : Nat) : Nat := Binding.plain (fun i => Operand.word a (3 + i)) i

/-- PROFILE_BIND (R267); one that names a compatibility port has no effect (R119). -/
def cmdProfileBind : CmdSpec where
  opcode := 0x38
  lenOk := lenIs 13
  argsOk _ a := Binding.wordsOk (bindWord a)
  journal := true
  staging := true
  forwarded := true
  effect p s :=
    let a := Operand.args p
    if s.compatSet (Binding.of (bindWord a)).port then .done 0x09 [] 0 s
    else (s.stageWords (bindKey (bitsOf (Operand.word a 2) 10 0) 0) ((List.range 12).map (bindWord a))).stagedOut

/-- A policy entry holds no reserved action and no value out of its range (Tables 10-4, 10-5). -/
def policyWordsOk (a : List Nat) : Bool :=
  let w (i : Nat) : Nat := Operand.word a (3 + i)
  ((List.range 16).all fun c => bitsOf (w (c / 6)) (17 - 3 * (c % 6)) (15 - 3 * (c % 6)) ≤ 5) &&
    bitsOf (w 2) 5 0 == 0 && bitsOf (w 3) 17 16 == 0 && bitsOf (w 4) 17 16 == 0 && bitsOf (w 5) 17 8 == 0 && w 5 != 0

/-- PROFILE_POLICY (R271). -/
def cmdProfilePolicy : CmdSpec where
  opcode := 0x39
  lenOk := lenIs 7
  argsOk _ a := policyWordsOk a
  journal := true
  staging := true
  forwarded := true
  effect p s :=
    let a := Operand.args p
    (s.stageWords (policyKey (bitsOf (Operand.word a 2) 7 0) 0) (entryOf a 3 6 0)).stagedOut

/-! ### Splice windows -/

/-- TGT of SPLICE_SET. -/
def spliceTgt (a : List Nat) : Nat := bitsOf (Operand.word a 2) 17 16

/-- The registers of SPLICE_SET with the word of each. -/
def spliceRegs (a : List Nat) : List (Reg × Nat) :=
  let w := bitsOf (Operand.word a 2) 3 0
  if spliceTgt a = 0 then [(R.SB_WCFG w, 3), (R.SB_WBASE w, 5), (R.SB_WRANGE w, 7), (R.SB_WPOLL w, 9)]
  else if spliceTgt a = 1 then [(R.SB_PBUF (bitsOf (Operand.word a 2) 10 4), 3)]
  else [(R.SB_CTRL, 3)]

/-- A SPLICE_SET holds no reserved combination, EN = 1 with ORG 0x3FF, and no SIZE beyond 1 to 2^24 (Tables 11-7a and
11-7b, R14). -/
def spliceOk (a : List Nat) : Bool :=
  let v := Operand.dword a 3
  let size := (F.SB_WRANGE.SIZE 0).of (Operand.dword a 7)
  spliceTgt a != 0 || (!((F.SB_WCFG.EN 0).of v == 1 && (F.SB_WCFG.ORG 0).of v == 0x3FF) && 1 ≤ size && size ≤ 2 ^ 24)

/-- A SPLICE_SET names a compatibility port (R119). -/
def spliceCompat (a : List Nat) (s : State) : Bool :=
  if spliceTgt a = 0 then s.compatSet ((F.SB_WCFG.PORT 0).of (Operand.dword a 3))
  else spliceTgt a == 1 && s.compatSet (bitsOf (Operand.word a 2) 10 4)

/-- SPLICE_SET (R291, R302); one that names a compatibility port has no effect (R119). -/
def cmdSpliceSet : CmdSpec where
  opcode := 0x40
  lenOk a := if spliceTgt a = 0 then a.length == 9 else a.length == 3
  argsOk _ a := spliceTgt a != 3 && (spliceTgt a != 1 || bitsOf (Operand.word a 2) 10 4 < 96) &&
    spliceOk a && (spliceRegs a).all fun e => Reg.legal e.1 (Operand.dword a e.2)
  journal := true
  staging := true
  forwarded := true
  effect p s :=
    let a := Operand.args p
    if spliceCompat a s then .done 0x09 [] 0 s
    else
      let s := each (spliceRegs a) (fun e s => s.stageReg e.1 (Operand.dword a e.2)) s
      (onlyIf (spliceTgt a == 0) (·.stageK (touchWindow (bitsOf (Operand.word a 2) 3 0)) 1) s).stagedOut

/-! ### Sleep, wake and power -/

/-- A command that a standby completes with the status that the active device forwards (R374, Table 13-8). -/
def State.forwardedOut (op : Nat) (p : Packet) (s : State) : CmdOut :=
  match s.pair.results.find? fun r => r.1 == op && r.2.1 == p.seq.toNat with
  | some r => .done r.2.2.1 r.2.2.2 0 (s.modPair fun P => { P with results := P.results.filter (· != r) })
  | none => .handed (0x10000 + p.seq.toNat) s

/-- NET_SLEEP on a compatibility port (R336): without frames, at the next boundary; in the boundary clk
at the one after (R340). -/
def State.sleepCompat (n group : Nat) (s : State) : CmdOut :=
  if group = 0x3F then
    let s := onlyIf (!s.asleep n) (·.modPort n fun P => { P with sleepIn := if s.boundaryHere then 2 else 1 }) s
    (onlyIf (s.rd F.SP_PSTAT.ROLE == 1) (State.sendHealth [n] false) s).doneOut
  else .done 0x09 [] 0 s

/-- NET_SLEEP on a native port (R331). -/
def State.sleepNative (n group : Nat) (s : State) : CmdOut :=
  if s.portState n ≠ 0 || (group != 0x3F && !s.flag (F.PW_GRP.GEN n group)) then .done 0x09 [] 0 s
  else if (s.port n).round.isSome || (group == 0x3F && s.flag (F.PW_PCFG.HOLD n)) then .done 0x0A [] 0 s
  else (s.startRound n group).doneOut

/-- NET_SLEEP. -/
def cmdNetSleep : CmdSpec where
  opcode := 0x48
  lenOk := lenIs 1
  argsOk _ a := Operand.portOk a && State.groupOk (groupArg a)
  journal := true
  forwarded := true
  effect p s :=
    let a := Operand.args p
    let n := Operand.port a
    let s := s.rewakes
    if s.isStandby then s.forwardedOut 0x48 p
    else if s.compat n then s.sleepCompat n (groupArg a) else s.sleepNative n (groupArg a)

/-- NET_WAKE on an ACTIVE port (R335). -/
def State.wakeActive (n group : Nat) (s : State) : State :=
  if group = 0x3F then
    let s := s.wakeRound n 4 0 0x3FF
    let s := onlyIf (bitOf (s.rd (F.PW_PCFG.WACT n)) 0) (fun s => s.driveWake n s.clk) s
    onlyIf (bitOf (s.rd (F.PW_PCFG.WACT n)) 1 && !s.compat n) (State.sendWakeFrame n 0x3F 4) s
  else
    let s := s.wakeGroup n group 4 0 0x3FF
    onlyIf (!s.compat n) (State.sendWakeFrame n group 4) s

/-- NET_WAKE (R335); in QUIET no wake source applies (R322). -/
def cmdNetWake : CmdSpec where
  opcode := 0x49
  lenOk := lenIs 1
  argsOk _ a := Operand.portOk a && State.groupOk (groupArg a)
  journal := true
  forwarded := true
  effect p s :=
    let a := Operand.args p
    let n := Operand.port a
    let s := s.rewakes
    if s.isStandby then s.forwardedOut 0x49 p
    else if s.sleptNow n then (s.arouse n 4 0 0x3FF (s.wakeState n) s.tickAfter).doneOut
    else if s.portState n = 0 then (s.wakeActive n (groupArg a)).doneOut
    else s.doneOut

/-- The registers of WAKE_FILTER with the word of each: a group, or the six dwords of a filter. -/
def wakeRegs (a : List Nat) : List (Reg × Nat) :=
  let n := Operand.port a
  let i := Operand.item a
  if bitOf i 5 then [(R.PW_GRP n (bitsOf i 4 0), 3)]
  else
    let f := bitsOf i 2 0
    [(R.PW_SWFID n f, 3), (R.PW_SWFIM n f, 5), (R.PW_SWFPV0 n f, 7), (R.PW_SWFPV1 n f, 9), (R.PW_SWFPM0 n f, 11),
      (R.PW_SWFPM1 n f, 13)]

/-- WAKE_FILTER (R327, R337). -/
def cmdWakeFilter : CmdSpec where
  opcode := 0x4A
  lenOk a := if bitOf (Operand.item a) 5 then a.length == 3 else a.length == 13
  argsOk _ a := Operand.portOk a && (wakeRegs a).all fun e => Reg.legal e.1 (Operand.dword a e.2)
  journal := true
  staging := true
  forwarded := true
  effect p s :=
    let a := Operand.args p
    (each (wakeRegs a) (fun e s => s.stageReg e.1 (Operand.dword a e.2)) s).stagedOut

/-- PORT_POWER: a state of Table 12-1 (R320). -/
def cmdPortPower : CmdSpec where
  opcode := 0x4B
  lenOk := lenIs 1
  argsOk _ a := Operand.portOk a && bitsOf (Operand.item a) 2 0 ≤ 4
  journal := true
  staging := true
  forwarded := true
  effect p s :=
    let a := Operand.args p
    (s.stageK (powerKey (Operand.port a)) (bitsOf (Operand.item a) 2 0 + 1)).stagedOut

/-! ### The tick, COMMIT and ABANDON -/

/-- The registers of TICK_CONFIG, in the order of SEL. -/
def tickRegs : List Reg :=
  [R.TK_CTRL, R.TK_PERIOD, R.TK_DL_CAPTURE, R.TK_DL_MAP, R.TK_DL_EMIT, R.TK_REACT, R.TK_SRC, R.TK_HOPDLY]

/-- TICK_CONFIG. -/
def cmdTickConfig : CmdSpec where
  opcode := 0x50
  lenOk := lenBlock 2 8
  argsOk _ a := blockOk tickRegs 2 a
  journal := true
  staging := true
  forwarded := true
  effect p s := (s.stageBlock tickRegs 2 (Operand.args p)).stagedOut

/-- Boundaries that pass before the one that makes a commit live: one for a COMMIT in the boundary clk (R44), or that an active
device of a pair executes in the last 1,000 clk of its tick; on a standby those up to the tick that the active device named
(R375). -/
def State.commitSkip (p : Packet) (s : State) : Nat :=
  if p.src = .stream then
    match s.pair.commitTag with
    | some t => t - (s.tickNo + 1)
    | none => 0
  else if s.boundaryHere || (s.flag F.SP_PAIR.EN && s.rd F.SP_PSTAT.ROLE == 1 && s.nextBoundary ≤ s.tick.time + 1000) then 1
  else 0

/-- A COMMIT of the tether stream that arrives after its boundary is late (R375). -/
def State.commitLate (p : Packet) (s : State) : State :=
  match s.pair.commitTag with
  | some t => onlyIf (p.src == .stream && decide (t ≤ s.tickNo)) (State.setCause 4) s
  | none => s

/-- COMMIT (R396 to R398, R375). One in the boundary clk in which another goes live is a commit of its own (R44). -/
def cmdCommit : CmdSpec where
  opcode := 0x51
  lenOk := lenIs 0
  steps _ := 2
  journal := true
  forwarded := true
  effect p s :=
    match (if s.stageShut then s.engine.next else s.engine.commit) with
    | some _ => .locked (0 :: words 2 (s.rd F.CE_COMMIT.TICKNO)) 0 s
    | none =>
      match s.commitFails with
      | some (check, unit) => .done 0x09 [pack [(check, 12), (unit, 0)]] 0 s
      | none =>
        let skip := s.commitSkip p
        let tick := s.tickNo + 1 + skip
        .locked (0 :: words 2 tick) skip (((s.commitLate p).wr F.CE_STAT.LOCK 1).wr F.CE_COMMIT.TICKNO tick)

/-- A commit that waits for its boundary is cancelled (R399, R404): event 0x02. In the boundary clk in which a commit goes
live that one is not cancelled (R410). -/
def State.cancelCommit (seq : Nat) (s : State) : State :=
  match (if s.stageShut then s.engine.next else s.engine.commit) with
  | none => s
  | some c =>
    let shut := s.stageShut
    let s := each (c.slot :: c.others) (fun i s => s.closeEntry i 0) s
    let s := if shut then s.modEngine fun g => { g with next := none }
      else (s.modEngine fun g => { g with commit := none }).wr F.CE_STAT.LOCK 0
    s.post 0x01 0x02 0 (words 2 (s.rd F.CE_COMMIT.TICKNO) ++ [seq * 2 ^ 6])

/-- Every staging copy takes the live value (R399): in the boundary clk of a commit, the value that goes live in it. -/
def State.dropStage (s : State) : State := { s with stage := if s.stageShut then s.stageWas.getD s.stage else [] }

/-- ABANDON (R399). -/
def cmdAbandon : CmdSpec where
  opcode := 0x52
  lenOk := lenIs 0
  journal := true
  forwarded := true
  effect p s := (s.dropStage.cancelCommit p.seq.toNat).doneOut

end Sys2Proof.Machine
end

