-- ==== Sys2Proof/Machine/Control.lean ====
section
/-! DEFINITION. The other commands of Table 14-4: remote access, spares and wear, the pair, the ledger, the journal,
telemetry, patching and self-tests; unlisted opcodes; and what the command engine does by itself. -/

namespace Sys2Proof.Machine

/-! ### Remote access (R297 to R299) -/

/-- OFS of REMOTE_READ and REMOTE_WRITE (Table 14-6). -/
def remoteOfs (a : List Nat) : Nat := Operand.word a 3 + 2 ^ 18 * bitsOf (Operand.word a 4) 5 0

/-- COUNT of REMOTE_READ and REMOTE_WRITE. -/
def remoteCount (a : List Nat) : Nat := bitsOf (Operand.word a 4) 17 12

/-- The window of a remote command. -/
def remoteWindow (a : List Nat) : Nat := bitsOf (Operand.word a 2) 3 0

/-- REMOTE_READ: at most two READ frames of up to 30 words (R298). -/
def cmdRemoteRead : CmdSpec where
  opcode := 0x41
  lenOk := lenIs 3
  argsOk _ a := 1 ≤ remoteCount a && remoteCount a ≤ 60
  steps a := if remoteCount a ≤ 30 then 1 else 2
  forwarded := true
  effect p s :=
    let a := Operand.args p
    s.remote 0x41 (remoteWindow a) (remoteOfs a) (remoteCount a) [] p

/-- REMOTE_WRITE: at most two WRITE frames of up to 29 words (R298). -/
def cmdRemoteWrite : CmdSpec where
  opcode := 0x42
  lenOk a := 3 ≤ a.length && a.length == 3 + remoteCount a
  argsOk _ a := 1 ≤ remoteCount a && remoteCount a ≤ 58
  steps a := if remoteCount a ≤ 29 then 1 else 2
  forwarded := true
  effect p s :=
    let a := Operand.args p
    s.remote 0x42 (remoteWindow a) (remoteOfs a) (remoteCount a) (p.args.drop 3) p

/-- REMOTE_LOCK: a lease of 0 asks for SB_CTRL.LEASE (R305). -/
def cmdRemoteLock : CmdSpec where
  opcode := 0x43
  lenOk := lenIs 2
  forwarded := true
  effect p s :=
    let a := Operand.args p
    let lease := bitsOf (Operand.word a 3) 11 0
    s.remote 0x43 (remoteWindow a) 0 0 [wordOf (if lease = 0 then s.rd F.SB_CTRL.LEASE else lease)] p

/-- REMOTE_UNLOCK (R307). -/
def cmdRemoteUnlock : CmdSpec where
  opcode := 0x44
  lenOk := lenIs 1
  forwarded := true
  effect p s := s.remote 0x44 (remoteWindow (Operand.args p)) 0 0 [] p

/-! ### Spares and self-tests (R354, R357, R358, R401) -/

/-- The unit that SPARE_TAKE and SELFTEST name. -/
def unitArg (a : List Nat) : Option UnitRef :=
  let u := bitsOf (Operand.word a 2) 6 0
  match bitsOf (Operand.word a 2) 17 16 with
  | 0 => if h : u < 108 then some (.cell ⟨u, h⟩) else none
  | 1 => if h : u < 9 then some (.engine ⟨u, h⟩) else none
  | 2 => if h : u < 3 then some (.lane ⟨u, h⟩) else none
  | _ => none

/-- The number under which a unit runs a handed-off command: cells from 0, engines from 128, tether lanes from 256. -/
def unitTag : UnitRef → Nat
  | .cell c => c
  | .engine e => 128 + e
  | .lane l => 256 + l

namespace State

/-- A tether lane has failed. -/
def laneFailed (s : State) (l : Nat) : Bool := bitOf (s.rd F.SP_LANE.FAILED) l

/-- A tether lane carries a logical lane. -/
def laneCarries (s : State) (l : Nat) : Bool := s.rd F.SP_LANE.PHYA == l || s.rd F.SP_LANE.PHYB == l

/-- A unit that SPARE_TAKE may name: no spare, and not failed (R401). -/
def takeOk (s : State) : UnitRef → Bool
  | .cell c => c % 9 != 8 && !s.cellFailed c
  | .engine e => e != 8 && !s.engineFailed e
  | .lane l => s.laneCarries l && !s.laneFailed l

/-- SPARE_TAKE (Table 13-3, R357, R358): the unit fails with cause 0x5, if its spare is free. -/
def spareTake (u : UnitRef) (s : State) : CmdOut :=
  match u with
  | .cell c => if s.mirrorFree (c / 9) then .handed (unitTag u) (s.failCell c 5 true false) else .done 0x0A [] 0 s
  | .engine e => if s.spareReady then .handed (unitTag u) (s.failEngine e 5) else .done 0x0A [] 0 s
  | .lane l =>
    match (List.range 3).find? fun x => x != l.val && !s.laneFailed x && !s.laneCarries x with
    | some x => .done 0 [x] 2 (s.failLane l 5)
    | none => .done 0x0A [] 0 s

/-- SPARE_RETURN of the port that the mirror cell of a block serves (Table 13-3). -/
def returnCell (b : Nat) (s : State) : CmdOut :=
  match s.mirrorServes b with
  | none => .done 0x09 [] 0 s
  | some k =>
    let c := 9 * b + k
    if hardCause (s.rd (causeField c)) || s.inLedger 0 c then .done 0x09 [] 0 s
    else .handed b (s.modBlock b fun B => { B with returning := some (k, false) })

/-- SPARE_RETURN of an engine or a tether lane that SPARE_TAKE has taken out: `kind` and `key` name it in the ledger. -/
def returnUnit (tag kind unit key : Nat) (failed : Bool) (s : State) : CmdOut :=
  if !failed || hardCause (Sparse.get 0 s.wear.cause key) || s.inLedger kind unit then .done 0x09 [] 0 s else .handed tag s

/-- A failed engine still serves its lane: one that a shadow pass or SPARE_TAKE has failed, until the next MAP (R356). -/
def stillServes (s : State) (e : Nat) : Bool :=
  s.spareTarget == some e && (Sparse.get 0 s.wear.cause (0x1000 + e) == 4 || Sparse.get 0 s.wear.cause (0x1000 + e) == 5)

/-- A unit that may be tested: a failed one, an idle spare or an idle mirror cell, which serves no port and no lane
(R401). -/
def testOk (s : State) : UnitRef → Bool
  | .cell c =>
    let unserved : Bool := match s.servedPort c with
      | some n => (s.cell c).isolated || (s.block (n / 8)).unserved.contains n
      | none => true
    if s.cellFailed c then unserved
    else c % 9 == 8 && s.mirrorFree (c / 9) && s.rd (F.BK_PINMUX.MLISTEN (c / 9)) == 0xF
  | .engine e => if s.engineFailed e then !s.stillServes e else e == 8 && s.spareReady
  | .lane l => !s.laneCarries l

/-- A unit whose self-test a SPARE_RETURN runs now. -/
def testBusy (s : State) : UnitRef → Bool
  | .cell c => match (s.block (c / 9)).returning with
    | some (slot, _) => slot == c % 9
    | none => false
  | u => (s.handoff 0x59 (unitTag u)).isSome

end State

/-- SPARE_TAKE. -/
def cmdSpareTake : CmdSpec where
  opcode := 0x58
  lenOk := lenIs 1
  argsOk s a := match unitArg a with | some u => s.takeOk u | none => false
  steps _ := 2
  journal := true
  single := true
  effect p s := match unitArg (Operand.args p) with | some u => s.spareTake u | none => .done 0x09 [] 0 s

/-- SPARE_RETURN: KIND 0x0 names a block. -/
def cmdSpareReturn : CmdSpec where
  opcode := 0x59
  lenOk := lenIs 1
  argsOk _ a := (unitArg a).isSome && (bitsOf (Operand.word a 2) 17 16 != 0 || bitsOf (Operand.word a 2) 6 0 < 12)
  steps _ := 3
  journal := true
  single := true
  effect p s := match unitArg (Operand.args p) with
    | some (.cell b) => s.returnCell b
    | some (.engine e) => s.returnUnit (128 + e) 1 e (0x1000 + e) (s.engineFailed e)
    | some (.lane l) => s.returnUnit (256 + l) 2 l (0x2000 + l) (s.laneFailed l)
    | none => .done 0x09 [] 0 s

/-- SELFTEST. -/
def cmdSelftest : CmdSpec where
  opcode := 0x71
  lenOk := lenIs 1
  argsOk s a := match unitArg a with | some u => s.testOk u | none => false
  single := true
  effect p s := match unitArg (Operand.args p) with
    | some u => if s.testBusy u then .done 0x0A [] 0 s else .handed (unitTag u) s
    | none => .done 0x09 [] 0 s

/-- The record that WEAR_RECORD names can be programmed (R368). -/
def State.wearOk (s : State) (i : Nat) : Bool :=
  (match s.wear.live[i]? with | some r => !r.otp | none => false) && decide (s.wear.otp.length < 64)

/-- VAUX and the temperatures lie in the programming range (R462): 1,750 to 1,890 mV, and 0 to 85 °C in units of
0.125 °C. -/
def State.canProgram (s : State) : Bool :=
  let v := s.rd F.SYS_VMON.VAUX
  1750 ≤ v && v ≤ 1890 && (List.range 4).all fun i =>
    s.flag (F.SYS_TEMP.EXCL i) || (decide (0 ≤ s.temp i) && decide (s.temp i ≤ 680))

/-- WEAR_RECORD (R368, R462). -/
def cmdWearRecord : CmdSpec where
  opcode := 0x5A
  lenOk := lenIs 1
  argsOk s a := s.wearOk (bitsOf (Operand.word a 2) 5 0)
  journal := true
  single := true
  effect p s :=
    let i := bitsOf (Operand.word (Operand.args p) 2) 5 0
    if !s.canProgram || s.wear.programming.isSome then .done 0x0A [] 0 s
    else .handed i (s.modWear fun w => { w with programming := some i })

/-! ### The pair -/

/-- TETHER_CONFIG stages SP_PAIR and ignores its RSREQ bit (R379). PAIRXOR 0 is reserved while EN = 1 (R14). -/
def cmdTetherConfig : CmdSpec where
  opcode := 0x60
  lenOk := lenIs 2
  argsOk _ a := Reg.legal R.SP_PAIR (Operand.dword a 2) &&
    !(F.SP_PAIR.EN.of (Operand.dword a 2) == 1 && F.SP_PAIR.PAIRXOR.of (Operand.dword a 2) == 0)
  journal := true
  staging := true
  effect p s := (s.stageReg R.SP_PAIR (Operand.dword (Operand.args p) 2)).stagedOut

/-- SWITCHOVER (R381): due at the next boundary if the standby is eligible. The active device tells the standby of it, and a
standby asks the active device for it, in the health traffic. -/
def cmdSwitchover : CmdSpec where
  opcode := 0x61
  lenOk := lenIs 0
  journal := true
  single := true
  effect _ s :=
    let tell (s : State) : State := s.send (.health { s.healthReport [] false with switchReq := true })
    if s.linkUp && s.rd F.SP_PSTAT.ROLE == 1 && s.flag F.SP_PSTAT.PELIG then
      .handed 0 (tell (s.modPair fun P => { P with switchPending := true }))
    else if s.linkUp && s.isStandby && s.flag F.SP_PSTAT.ELIG then .handed 0 (tell s)
    else .done 0x0A [] 0 s

/-! ### Ledger, journal and telemetry -/

/-- The words that report a ledger entry (Table 14-11). -/
def entryPair (e : LedgerEntry) : List Nat :=
  [pack [(e.seq, 6), (e.state, 4), (b2n e.partner, 3)],
   pack [(e.k, 12), (e.n, 6), (if e.state = 2 then e.status else 0, 0)]]

/-- The slots that LEDGER_QUERY reports, in order, with a `none` for a SEQ that is not in the ledger, and NEXTSLOT
(R407). The query's own entry, of SEQ `own`, is never among them. -/
def State.queried (s : State) (a : List Nat) (own : Nat) : List (Nat × Option Nat) × Nat :=
  let w := Operand.word a 2
  let es := s.engine.ledger.filter fun e => e.2.seq != own
  if bitOf w 16 then
    let l := es.filter fun e => bitsOf w 15 8 ≤ e.1
    let r := l.take 31
    (r.map fun e => (e.2.seq, some e.1), if l.length ≤ 31 then 0x100 else (r.getLast?.map (·.1 + 1)).getD 0x100)
  else
    ((a.drop 1).map fun x => (x / 64, (es.find? fun e => e.2.seq == x / 64).map (·.1)), 0)

/-- LEDGER_QUERY (R407). -/
def cmdLedgerQuery : CmdSpec where
  opcode := 0x68
  lenOk a := 1 ≤ a.length && bitsOf (Operand.word a 2) 5 0 ≤ 31 && a.length == 1 + bitsOf (Operand.word a 2) 5 0
  argsOk _ a := !bitOf (Operand.word a 2) 16 || bitsOf (Operand.word a 2) 5 0 == 0
  effect p s :=
    let a := Operand.args p
    let q := s.queried a p.seq.toNat
    let pairs := q.1.flatMap fun e => match e.2.bind fun i => Sparse.find s.engine.ledger i with
      | some x => entryPair x
      | none => [pack [(e.1, 6), (3, 4)], 0]
    let freed := q.1.filterMap fun e => e.2
    let t := onlyIf (bitOf (Operand.word a 2) 17) (·.setLedger (·.filter fun e => !(freed.contains e.1 && e.2.state == 2))) s
    .done 0 (pack [(q.2, 9), (q.1.length, 0)] :: pairs) 1 t

/-- JOURNAL_READ (R403). -/
def cmdJournalRead : CmdSpec where
  opcode := 0x69
  lenOk := lenIs 1
  argsOk _ a := bitsOf (Operand.word a 2) 14 12 != 0
  effect p s :=
    let w := Operand.word (Operand.args p) 2
    .done 0 (s.rd F.CE_JLOG.NEXT :: (List.range (bitsOf w 14 12)).flatMap fun i =>
      Sparse.get (List.replicate 8 0) s.engine.journal ((bitsOf w 11 0 + i) % 4096)) 1 s

/-- TELEMETRY_READ (R456). -/
def cmdTelemetryRead : CmdSpec where
  opcode := 0x6A
  lenOk := lenIs 1
  argsOk _ a :=
    let n := bitsOf (Operand.word a 2) 13 8
    1 ≤ n && n ≤ 60 && bitsOf (Operand.word a 2) 7 0 + n ≤ 0x70
  effect p s :=
    let w := Operand.word (Operand.args p) 2
    .done 0 ((List.range (bitsOf w 13 8)).map fun i => s.telemetryItem (bitsOf w 7 0 + i)) 1 s

/-! ### Firmware patching (R408, R409) -/

namespace State

/-- A word of the patch RAM. -/
def patchWord (s : State) (i : Nat) : Nat := (Sparse.get 0 s.engine.patch i).toNat

def wrPatch (i : Nat) (v : Word) (s : State) : State :=
  (s.modEngine fun g => { g with patch := Sparse.put 0 g.patch i v }).wrote (badKey .patch i)

/-- The image in the patch RAM is good (R408). -/
def patchGood (s : State) : Bool :=
  let n := s.patchWord 1
  s.patchWord 0 != 0 && 1 ≤ n && n ≤ 4092 &&
    fcrc ((List.range n).flatMap fun i => bitsMsb 18 (s.patchWord (4 + i))) == s.patchWord 2 + 2 ^ 18 * s.patchWord 3

/-- No patch is active. -/
def clearPatch (s : State) : State := ((s.wr F.CE_STAT.PATCH 0).wr F.CE_PATCH.PID 0).wr F.CE_PATCH.NWORDS 0

/-- A write to the patch RAM deactivates the active patch: event 0x04. -/
def deactivatePatch (s : State) : State :=
  if s.flag F.CE_STAT.PATCH then s.clearPatch.post 0x01 0x04 0 [s.rd F.CE_PATCH.PID, 0] else s

/-- PATCH_LOAD with ACT = 1: the image is checked (R409). -/
def activatePatch (s : State) : CmdOut :=
  let pid := s.patchWord 0
  let n := s.patchWord 1
  if s.patchGood then
    let s := ((s.wr F.CE_STAT.PATCH 1).wr F.CE_PATCH.PID pid).wr F.CE_PATCH.NWORDS n
    .done 0 [pid] 2 (s.post 0x01 0x03 0 [pid, n])
  else .done 0x09 [] 1 (s.clearPatch.post 0x01 0x04 0 [pid, 1])

end State

/-- PATCH_LOAD (R409). -/
def cmdPatchLoad : CmdSpec where
  opcode := 0x70
  lenOk a := 1 ≤ a.length && a.length ≤ 61
  argsOk _ a := bitsOf (Operand.word a 2) 11 0 + (a.length - 1) ≤ 4096
  steps a := if bitOf (Operand.word a 2) 17 then 2 else 1
  journal := true
  forwarded := true
  effect p s :=
    let a := Operand.args p
    let ofs := bitsOf (Operand.word a 2) 11 0
    if s.engine.handoffs != [] then .done 0x0A [] 0 s
    else
      let data := a.drop 1
      let s := if data = [] then s
        else each ((List.range data.length).zip data) (fun e s => s.wrPatch (ofs + e.1) (wordOf e.2)) s.deactivatePatch
      if bitOf (Operand.word a 2) 17 then s.activatePatch else .done 0 [s.rd F.CE_PATCH.PID] 1 s

/-! ### The opcodes -/

/-- The row of Table 14-4 of an opcode. -/
def specOf (op : Nat) : CmdSpec :=
  match op with
  | 0x01 => cmdNop | 0x02 => cmdIdent
  | 0x10 => cmdPortConfig | 0x11 => cmdPortMode | 0x12 => cmdPortTiming | 0x13 => cmdPortAutorate | 0x14 => cmdPortRecover
  | 0x18 => cmdFilterSet | 0x19 => cmdBufferSet | 0x1A => cmdBufferRelease
  | 0x20 => cmdQueueConfig | 0x21 => cmdQueueCredit | 0x22 => cmdQueueDrop
  | 0x30 => cmdKnotWrite | 0x31 => cmdKnotListSet | 0x32 => cmdScaleWrite
  | 0x38 => cmdProfileBind | 0x39 => cmdProfilePolicy
  | 0x40 => cmdSpliceSet | 0x41 => cmdRemoteRead | 0x42 => cmdRemoteWrite | 0x43 => cmdRemoteLock | 0x44 => cmdRemoteUnlock
  | 0x48 => cmdNetSleep | 0x49 => cmdNetWake | 0x4A => cmdWakeFilter | 0x4B => cmdPortPower
  | 0x50 => cmdTickConfig | 0x51 => cmdCommit | 0x52 => cmdAbandon
  | 0x58 => cmdSpareTake | 0x59 => cmdSpareReturn | 0x5A => cmdWearRecord
  | 0x60 => cmdTetherConfig | 0x61 => cmdSwitchover
  | 0x68 => cmdLedgerQuery | 0x69 => cmdJournalRead | 0x6A => cmdTelemetryRead
  | 0x70 => cmdPatchLoad | 0x71 => cmdSelftest
  | n => cmdUnlisted n

end Sys2Proof.Machine
end

