-- ==== Sys2Proof/Machine/Packets.lean ====
section
/-! DEFINITION. The command engine takes packets (R387, R393): where a packet comes from, the packets that wait behind one
another, and every happening that lets the engine go on. -/

namespace Sys2Proof.Machine

/-- The words of a command packet (Table 14-1). -/
def packetWords (op : Nat) (p : Packet) : List Nat :=
  [pack [(op, 10), (b2n p.quiet, 9), (b2n p.fence, 8), (b2n p.track, 7), (p.args.length, 0)],
   pack [(p.seq.toNat, 6)]] ++ p.args.map (·.toNat)

/-- Whether a queued packet is this command: its reserved bits are ignored (R387). -/
def packetIs (op : Nat) (p : Packet) (h : List QWord) : Bool :=
  match h.map (·.word.toNat) with
  | w0 :: w1 :: t =>
    w0 - w0 % 128 + w0 % 64 == (packetWords op p).headD 0 && w1 / 64 == p.seq.toNat && t == p.args.map (·.toNat)
  | _ => false

/-- The words of packet `k` of those that stand in a queue, from 0. -/
def Queue.nth : Nat → List QWord → List QWord
  | 0, l => Queue.head l
  | k + 1, l => Queue.nth k (l.drop (Queue.head l).length)

namespace State

/-- The host pushes a whole packet into the command queue; without credit for it, its words end as R219 says. -/
def hostPacket (ws : List Nat) (s : State) : State :=
  if ws.length ≤ s.credit qCommand then s.pushPacket qCommand ws
  else (each ws.dropLast (fun w => hostPush qCommand w false) s).hostPush qCommand (ws.getLastD 0) true

/-- A packet reaches the engine's input: a packet of the host stands in the command queue behind those whose rows have come
before, pushed by QDATA_PUSH rows or with this row; `none` where another packet stands there, or the host has a packet open.
A packet of the tether stream has no place in the queue (log entry 6). -/
def arrive (op tick : Nat) (p : Packet) (s : State) : Option State :=
  let listed (s : State) : State := s.modEngine fun g => { g with behind := g.behind ++ [(op, p, tick)] }
  if p.src = .stream then some (listed s)
  else
    let h := Queue.nth (s.engine.behind.filter fun e => e.2.1.src == .host).length (s.queue qCommand).vis
    if h ≠ [] then (if packetIs op p h then some (listed s) else none)
    else if (s.queue qCommand).opened ≠ [] || (s.queue qCommand).discarding then none
    else
      let t := s.hostPacket (packetWords op p)
      if (packetWords op p).length ≤ s.credit qCommand then some (listed t) else some t

/-- The engine pops the first packet that has come (R230, R387, R393): none waits then. -/
def popNext (e : Nat × Packet × Nat) (s : State) : State :=
  let s := s.wr F.CE_STAT.WAIT 0
  let c := specOf e.1
  if e.2.1.src = .stream then
    (onlyIf (e.1 == 0x51) (·.modPair fun P => { P with commitTag := some e.2.2 }) s).take c e.2.1
  else
    match (s.markNow qCommand).takePacket qCommand with
    | some (h, t) => if h.any (·.bad.isSome) then t.badPacket qCommand h else t.take c e.2.1
    | none => s

/-- The engine goes on as far as it can: replies that are owed, the command that waits, then those behind it in order (R225,
R393, R394). -/
def pump : Nat → State → State
  | 0, s => s
  | k + 1, s =>
    let s := s.replyOwed
    match s.engine.waiting, s.engine.behind with
    | some w, _ =>
      let s := s.resume (specOf w.opcode) w
      if s.engine.waiting.isSome then s else pump k s
    | none, [] => s
    | none, e :: t =>
      if s.engine.rewound != [] || s.credit qReply < 65 then s.wr F.CE_STAT.WAIT 3
      else pump k ((s.modEngine fun g => { g with behind := t }).popNext e)

/-- The engine goes on where a command waits or a packet stands before it. -/
def goOn (s : State) : State :=
  if s.engine.waiting.isNone && s.engine.behind.isEmpty then s else pump (2 * s.engine.behind.length + 2) s

/-- A command packet comes to the engine, which takes it in its turn. -/
def meet (op tick : Nat) (p : Packet) (s : State) : State := ((s.arrive op tick p).getD s).goOn

end State

/-- The engine meets a command packet of the opcode table. -/
def engine (op : Nat) (p : Packet) (s : State) : Outcome :=
  if 63 < p.args.length then .fault .illFormed else ready s (·.meet op 0 p)

/-! ### Command packets -/

def execNop (p : Packet) (s : State) : Outcome := engine 0x01 p s
def execIdent (p : Packet) (s : State) : Outcome := engine 0x02 p s
def execPortConfig (p : Packet) (s : State) : Outcome := engine 0x10 p s
def execPortMode (p : Packet) (s : State) : Outcome := engine 0x11 p s
def execPortTiming (p : Packet) (s : State) : Outcome := engine 0x12 p s
def execPortAutorate (p : Packet) (s : State) : Outcome := engine 0x13 p s

/-- The same opcode, whose STOP bit tells the two apart (R147, R402). -/
def execPortAutorateStop (p : Packet) (s : State) : Outcome := engine 0x13 p s

def execPortRecover (p : Packet) (s : State) : Outcome := engine 0x14 p s
def execFilterSet (p : Packet) (s : State) : Outcome := engine 0x18 p s
def execBufferSet (p : Packet) (s : State) : Outcome := engine 0x19 p s
def execBufferRelease (p : Packet) (s : State) : Outcome := engine 0x1A p s
def execQueueConfig (p : Packet) (s : State) : Outcome := engine 0x20 p s
def execQueueCredit (p : Packet) (s : State) : Outcome := engine 0x21 p s
def execQueueDrop (p : Packet) (s : State) : Outcome := engine 0x22 p s
def execKnotWrite (p : Packet) (s : State) : Outcome := engine 0x30 p s
def execKnotListSet (p : Packet) (s : State) : Outcome := engine 0x31 p s
def execScaleWrite (p : Packet) (s : State) : Outcome := engine 0x32 p s
def execProfileBind (p : Packet) (s : State) : Outcome := engine 0x38 p s
def execProfilePolicy (p : Packet) (s : State) : Outcome := engine 0x39 p s
def execSpliceSet (p : Packet) (s : State) : Outcome := engine 0x40 p s
def execNetSleep (p : Packet) (s : State) : Outcome := engine 0x48 p s
def execNetWake (p : Packet) (s : State) : Outcome := engine 0x49 p s
def execWakeFilter (p : Packet) (s : State) : Outcome := engine 0x4A p s
def execPortPower (p : Packet) (s : State) : Outcome := engine 0x4B p s
def execTickConfig (p : Packet) (s : State) : Outcome := engine 0x50 p s
def execCommit (p : Packet) (s : State) : Outcome := engine 0x51 p s
def execAbandon (p : Packet) (s : State) : Outcome := engine 0x52 p s
def execRemoteRead (p : Packet) (s : State) : Outcome := engine 0x41 p s
def execRemoteWrite (p : Packet) (s : State) : Outcome := engine 0x42 p s
def execRemoteLock (p : Packet) (s : State) : Outcome := engine 0x43 p s
def execRemoteUnlock (p : Packet) (s : State) : Outcome := engine 0x44 p s
def execSpareTake (p : Packet) (s : State) : Outcome := engine 0x58 p s
def execSpareReturn (p : Packet) (s : State) : Outcome := engine 0x59 p s
def execWearRecord (p : Packet) (s : State) : Outcome := engine 0x5A p s
def execTetherConfig (p : Packet) (s : State) : Outcome := engine 0x60 p s
def execSwitchover (p : Packet) (s : State) : Outcome := engine 0x61 p s
def execLedgerQuery (p : Packet) (s : State) : Outcome := engine 0x68 p s
def execJournalRead (p : Packet) (s : State) : Outcome := engine 0x69 p s
def execTelemetryRead (p : Packet) (s : State) : Outcome := engine 0x6A p s
def execPatchLoad (p : Packet) (s : State) : Outcome := engine 0x70 p s
def execSelftest (p : Packet) (s : State) : Outcome := engine 0x71 p s

/-- BAD_OPCODE (R389): a packet by its opcode; one that Table 14-4 lists is that command. -/
def execBadOpcode (opcode : BitVec 8) (p : Packet) (s : State) : Outcome := engine opcode.toNat p s

/-! ### What lets the engine go on -/

/-- COMMAND_WAIT_TIMEOUT (R393): the engine meets its waiting command once WAITLIM boundaries have passed. -/
def execCommandWaitTimeout (s : State) : Outcome :=
  ready s fun s =>
    match s.engine.waiting with
    | some w => if s.rd F.CE_CFG.WAITLIM ≤ w.boundaries then s.goOn else s
    | none => s

/-- HANDOFF_REPLY (R394): the reply of the first ended handed-off command, with credit for it. -/
def execHandoffReply (s : State) : Outcome := ready s (·.replyHandoff.goOn)

/-- REWOUND_COMMAND_REPLY (R225): the reply of the oldest rewound command packet. -/
def execRewoundCommandReply (s : State) : Outcome := ready s (·.replyRewound.goOn)

/-- TICK_BOUNDARY (R42, R43): a commit lock that ends lets staging commands start. -/
def execTickBoundary (s : State) : Outcome := ready s (·.boundary.goOn)

/-- PHASE_DEADLINE (R46): the first clk at or after the deadline of a phase that has not completed. EMIT may start in
it, and the span of R260 with it. -/
def execPhaseDeadline (ph : TickPhase) (portB : List (PortId × BufId)) (s : State) : Outcome :=
  ready s fun s => (s.phaseDeadline ph (portB.map fun e => (e.1.val, e.2.val))).goOn

/-- CAPTURE_COMPLETE (R45): transfers, host-write application and area writes are done. -/
def execCaptureComplete (s : State) : Outcome := ready s (·.captureComplete.goOn)

/-- MAP_COMPLETE (R255): EMIT starts, and the span of R260. -/
def execMapComplete (s : State) : Outcome := ready s (·.mapComplete.goOn)

/-- QDATA_POP (Table 8-10b): the host pops a word, which may give the reply queue the credit that the engine waits for. -/
def execQdataPop (q : QueuePop) (s : State) : Outcome :=
  .next (s.onQueue q.queue fun a => (s.hostRead a 0 q.found).goOn)

end Sys2Proof.Machine
end

