-- ==== Sys2Proof/Machine/Stream.lean ====
section
/-! DEFINITION. The tethered stream (R373 to R375): what a standby does with the items that the active device sends. -/

namespace Sys2Proof.Machine
namespace State

/-- A write of the emit window, tagged with the tick at which it applies (R375). A write that arrives after the
list-close mark of that tick is late: it applies at the next boundary, and the standby becomes ineligible. -/
def streamEmit (i : Nat) (d : Dword) (tick : Nat) (s : State) : State :=
  let we := s.rd F.GW_HWCTRL.WE
  if we = 0 then s
  else if s.tickNo + 1 < tick then s.modPair fun P => { P with ahead := P.ahead ++ [(tick, ⟨i, we, d⟩)] }
  else if tick = s.tickNo + 1 then s.enterList false i d
  else if tick = s.tickNo && !s.pair.listClose then s.modGw fun g => { g with applying := joinList i we d g.applying }
  else (s.hostWriteList i d).setCause 4

/-- A host write of the active device; SYS_SYSADDR and SYS_SCRATCH are local to each device (R438). -/
def streamWrite (a : Nat) (d : Dword) (tick : Nat) (s : State) : State :=
  match targetOf a with
  | .emit i => s.streamEmit i d tick
  | .reg _ | .blockReg _ _ | .cellReg _ _ | .blockRam _ _ | .knot _ => if a ≤ 1 then s else s.writeReady a d true
  | _ => s

/-- A command of the active device, if Table 13-8 forwards it (R374). -/
def streamCommand (op : Nat) (p : Packet) (tick : Nat) (s : State) : State :=
  if (specOf op).forwarded then (s.meet op tick { p with src := .stream }).compareStatuses else s

/-- The result of a remote command of the active device ends the command here, or waits for it (R374). -/
def streamResult (op seq status : Nat) (results : List Nat) (s : State) : State :=
  if (s.handoff op (0x10000 + seq)).isSome then s.endHandoff op (0x10000 + seq) status results
  else s.modPair fun P => { P with results := P.results ++ [(op, seq, status, results)] }

/-- One item of the stream. -/
def stream (i : StreamItem) (s : State) : State :=
  match i with
  | .hostWrite a d t => s.streamWrite a.toNat d t.toNat
  | .command op p t => s.streamCommand op.toNat p t.toNat
  | .remoteResult op q st rs => s.streamResult op.toNat q.toNat st.toNat (rs.map (·.toNat))

end State

/-- Words of a packet or of results in an item of the stream. -/
def itemLength : StreamItem → Nat
  | .hostWrite _ _ _ => 0
  | .command _ p _ => p.args.length
  | .remoteResult _ _ _ rs => rs.length

/-- STREAM_ITEM (R373, R374): a standby whose link is up takes the item. -/
def execStreamItem (i : StreamItem) (s : State) : Outcome :=
  if 63 < itemLength i then .fault .illFormed
  else wakeful s fun s => if s.isStandby && s.linkUp then s.stream i else s

end Sys2Proof.Machine
end

