-- ==== Sys2Proof/Machine/Dispatch.lean ====
section
/-! DEFINITION. One arm for each command: a direct call of its meaning. -/

namespace Sys2Proof.Machine

def exec (i : Instr) (s : State) : Host.Outcome State Fault Refusal :=
  match i with
  | .nop p => Sys2Proof.Machine.execNop p s
  | .ident p => Sys2Proof.Machine.execIdent p s
  | .portConfig p => Sys2Proof.Machine.execPortConfig p s
  | .portMode p => Sys2Proof.Machine.execPortMode p s
  | .portTiming p => Sys2Proof.Machine.execPortTiming p s
  | .portAutorate p => Sys2Proof.Machine.execPortAutorate p s
  | .portAutorateStop p => Sys2Proof.Machine.execPortAutorateStop p s
  | .portRecover p => Sys2Proof.Machine.execPortRecover p s
  | .filterSet p => Sys2Proof.Machine.execFilterSet p s
  | .bufferSet p => Sys2Proof.Machine.execBufferSet p s
  | .bufferRelease p => Sys2Proof.Machine.execBufferRelease p s
  | .queueConfig p => Sys2Proof.Machine.execQueueConfig p s
  | .queueCredit p => Sys2Proof.Machine.execQueueCredit p s
  | .queueDrop p => Sys2Proof.Machine.execQueueDrop p s
  | .knotWrite p => Sys2Proof.Machine.execKnotWrite p s
  | .knotListSet p => Sys2Proof.Machine.execKnotListSet p s
  | .scaleWrite p => Sys2Proof.Machine.execScaleWrite p s
  | .profileBind p => Sys2Proof.Machine.execProfileBind p s
  | .profilePolicy p => Sys2Proof.Machine.execProfilePolicy p s
  | .spliceSet p => Sys2Proof.Machine.execSpliceSet p s
  | .remoteRead p => Sys2Proof.Machine.execRemoteRead p s
  | .remoteWrite p => Sys2Proof.Machine.execRemoteWrite p s
  | .remoteLock p => Sys2Proof.Machine.execRemoteLock p s
  | .remoteUnlock p => Sys2Proof.Machine.execRemoteUnlock p s
  | .netSleep p => Sys2Proof.Machine.execNetSleep p s
  | .netWake p => Sys2Proof.Machine.execNetWake p s
  | .wakeFilter p => Sys2Proof.Machine.execWakeFilter p s
  | .portPower p => Sys2Proof.Machine.execPortPower p s
  | .tickConfig p => Sys2Proof.Machine.execTickConfig p s
  | .commit p => Sys2Proof.Machine.execCommit p s
  | .abandon p => Sys2Proof.Machine.execAbandon p s
  | .spareTake p => Sys2Proof.Machine.execSpareTake p s
  | .spareReturn p => Sys2Proof.Machine.execSpareReturn p s
  | .wearRecord p => Sys2Proof.Machine.execWearRecord p s
  | .tetherConfig p => Sys2Proof.Machine.execTetherConfig p s
  | .switchover p => Sys2Proof.Machine.execSwitchover p s
  | .ledgerQuery p => Sys2Proof.Machine.execLedgerQuery p s
  | .journalRead p => Sys2Proof.Machine.execJournalRead p s
  | .telemetryRead p => Sys2Proof.Machine.execTelemetryRead p s
  | .patchLoad p => Sys2Proof.Machine.execPatchLoad p s
  | .selftest p => Sys2Proof.Machine.execSelftest p s
  | .badOpcode opcode p => Sys2Proof.Machine.execBadOpcode opcode p s
  | .commandWaitTimeout => Sys2Proof.Machine.execCommandWaitTimeout s
  | .handoffReply => Sys2Proof.Machine.execHandoffReply s
  | .rewoundCommandReply => Sys2Proof.Machine.execRewoundCommandReply s
  | .registerWrite addr data => Sys2Proof.Machine.execRegisterWrite addr data s
  | .rcRead addr => Sys2Proof.Machine.execRcRead addr s
  | .timeLoRead => Sys2Proof.Machine.execTimeLoRead s
  | .sysFaultClear => Sys2Proof.Machine.execSysFaultClear s
  | .reacq => Sys2Proof.Machine.execReacq s
  | .errctrlRelease c => Sys2Proof.Machine.execErrctrlRelease c s
  | .retry c => Sys2Proof.Machine.execRetry c s
  | .rsreq => Sys2Proof.Machine.execRsreq s
  | .qdataPop q => Sys2Proof.Machine.execQdataPop q s
  | .qdataPush q data => Sys2Proof.Machine.execQdataPush q data s
  | .qpush2 q data => Sys2Proof.Machine.execQpush2 q data s
  | .flush n => Sys2Proof.Machine.execFlush n s
  | .statusPairHold p d hold => Sys2Proof.Machine.execStatusPairHold p d hold s
  | .s1Release p d hold => Sys2Proof.Machine.execS1Release p d hold s
  | .pwHoldWrite p hold => Sys2Proof.Machine.execPwHoldWrite p hold s
  | .emitWindowWrite k data => Sys2Proof.Machine.execEmitWindowWrite k data s
  | .knotWindowWrite k data => Sys2Proof.Machine.execKnotWindowWrite k data s
  | .blockRamWrite b k data => Sys2Proof.Machine.execBlockRamWrite b k data s
  | .parityErrorWrite addr data => Sys2Proof.Machine.execParityErrorWrite addr data s
  | .discardedAccess addr read data => Sys2Proof.Machine.execDiscardedAccess addr read data s
  | .uncorrectableRead addr words => Sys2Proof.Machine.execUncorrectableRead addr words s
  | .powerOnReset => Sys2Proof.Machine.execPowerOnReset s
  | .brownout => Sys2Proof.Machine.execBrownout s
  | .pinReset => Sys2Proof.Machine.execPinReset s
  | .clockFaultReset => Sys2Proof.Machine.execClockFaultReset s
  | .thermalReset => Sys2Proof.Machine.execThermalReset s
  | .resetRelease senior portStart bootsel => Sys2Proof.Machine.execResetRelease senior portStart bootsel s
  | .mainPllLockTimeout => Sys2Proof.Machine.execMainPllLockTimeout s
  | .ready lockUs failing => Sys2Proof.Machine.execReady lockUs failing s
  | .tickBoundary => Sys2Proof.Machine.execTickBoundary s
  | .phaseDeadline ph portB => Sys2Proof.Machine.execPhaseDeadline ph portB s
  | .captureTransfer p d => Sys2Proof.Machine.execCaptureTransfer p d s
  | .profileAreaWrite n => Sys2Proof.Machine.execProfileAreaWrite n s
  | .captureComplete => Sys2Proof.Machine.execCaptureComplete s
  | .knotIssue lane differs => Sys2Proof.Machine.execKnotIssue lane differs s
  | .mapComplete => Sys2Proof.Machine.execMapComplete s
  | .emitTransfer p d part => Sys2Proof.Machine.execEmitTransfer p d part s
  | .emitComplete => Sys2Proof.Machine.execEmitComplete s
  | .releaseTime p d => Sys2Proof.Machine.execReleaseTime p d s
  | .tickWordReceived edge w => Sys2Proof.Machine.execTickWordReceived edge w s
  | .tetherTickMark edge btime tickNo period => Sys2Proof.Machine.execTetherTickMark edge btime tickNo period s
  | .referenceMissing => Sys2Proof.Machine.execReferenceMissing s
  | .holdoverFallback => Sys2Proof.Machine.execHoldoverFallback s
  | .frameStart c tdc => Sys2Proof.Machine.execFrameStart c tdc s
  | .frameSofReceived c head => Sys2Proof.Machine.execFrameSofReceived c head s
  | .arbitrationLost c => Sys2Proof.Machine.execArbitrationLost c s
  | .errorDetected c e => Sys2Proof.Machine.execErrorDetected c e s
  | .protocolException c bits => Sys2Proof.Machine.execProtocolException c bits s
  | .frameValidReceiver c bits last => Sys2Proof.Machine.execFrameValidReceiver c bits last s
  | .frameValidTransmitter c => Sys2Proof.Machine.execFrameValidTransmitter c s
  | .integrationComplete c => Sys2Proof.Machine.execIntegrationComplete c s
  | .recoverySequence c => Sys2Proof.Machine.execRecoverySequence c s
  | .recoveryDelayElapsed c => Sys2Proof.Machine.execRecoveryDelayElapsed c s
  | .frameBoundary p => Sys2Proof.Machine.execFrameBoundary p s
  | .beaconReady c => Sys2Proof.Machine.execBeaconReady c s
  | .beaconMissing c => Sys2Proof.Machine.execBeaconMissing c s
  | .windowClose c => Sys2Proof.Machine.execWindowClose c s
  | .receiveStore c part => Sys2Proof.Machine.execReceiveStore c part s
  | .receiveQueuePush c => Sys2Proof.Machine.execReceiveQueuePush c s
  | .transmitFetch c part => Sys2Proof.Machine.execTransmitFetch c part s
  | .rateMeasureDone c tmin => Sys2Proof.Machine.execRateMeasureDone c tmin s
  | .rateDwellExpiry c => Sys2Proof.Machine.execRateDwellExpiry c s
  | .eventRecordPush => Sys2Proof.Machine.execEventRecordPush s
  | .eventsLost => Sys2Proof.Machine.execEventsLost s
  | .reportEvaluation n => Sys2Proof.Machine.execReportEvaluation n s
  | .hartRequest => Sys2Proof.Machine.execHartRequest s
  | .hartReply n => Sys2Proof.Machine.execHartReply n s
  | .hartTimeout n => Sys2Proof.Machine.execHartTimeout n s
  | .serviceFrameDispatch p => Sys2Proof.Machine.execServiceFrameDispatch p s
  | .outboundRelease p inbound => Sys2Proof.Machine.execOutboundRelease p inbound s
  | .transactionTimeout e => Sys2Proof.Machine.execTransactionTimeout e s
  | .quarantineEnd e => Sys2Proof.Machine.execQuarantineEnd e s
  | .prefetchAgeDrop w => Sys2Proof.Machine.execPrefetchAgeDrop w s
  | .pollDue w => Sys2Proof.Machine.execPollDue w s
  | .leaseExpiry p => Sys2Proof.Machine.execLeaseExpiry p s
  | .hostAnswer => Sys2Proof.Machine.execHostAnswer s
  | .inboundExpiry k => Sys2Proof.Machine.execInboundExpiry k s
  | .voteWindowClose p => Sys2Proof.Machine.execVoteWindowClose p s
  | .sleepEntry p => Sys2Proof.Machine.execSleepEntry p s
  | .wakeLine p => Sys2Proof.Machine.execWakeLine p s
  | .busPatternWake p => Sys2Proof.Machine.execBusPatternWake p s
  | .umbraFrame p bits => Sys2Proof.Machine.execUmbraFrame p bits s
  | .tickWake p => Sys2Proof.Machine.execTickWake p s
  | .timerWake p => Sys2Proof.Machine.execTimerWake p s
  | .partnerWake p => Sys2Proof.Machine.execPartnerWake p s
  | .wakePulseEnd p => Sys2Proof.Machine.execWakePulseEnd p s
  | .lmdlyExpiry p => Sys2Proof.Machine.execLmdlyExpiry p s
  | .blockPowerOff b => Sys2Proof.Machine.execBlockPowerOff b s
  | .blockPowerUpComplete b => Sys2Proof.Machine.execBlockPowerUpComplete b s
  | .cellFault c failure busIdle => Sys2Proof.Machine.execCellFault c failure busIdle s
  | .heartbeatSample b toggled busIdle => Sys2Proof.Machine.execHeartbeatSample b toggled busIdle s
  | .takeoverLoadDone b => Sys2Proof.Machine.execTakeoverLoadDone b s
  | .mirrorFrameValid b bits last stamp => Sys2Proof.Machine.execMirrorFrameValid b bits last stamp s
  | .engineCheckerError e => Sys2Proof.Machine.execEngineCheckerError e s
  | .selftestComplete u pass => Sys2Proof.Machine.execSelftestComplete u pass s
  | .scrubAccess ram addr found => Sys2Proof.Machine.execScrubAccess ram addr found s
  | .rowCopyDone ram row => Sys2Proof.Machine.execRowCopyDone ram row s
  | .agingMeasurement b codes => Sys2Proof.Machine.execAgingMeasurement b codes s
  | .leaseGrant u => Sys2Proof.Machine.execLeaseGrant u s
  | .tetherFrameResend frame => Sys2Proof.Machine.execTetherFrameResend frame s
  | .tetherLaneFailure l => Sys2Proof.Machine.execTetherLaneFailure l s
  | .tetherPllLoss => Sys2Proof.Machine.execTetherPllLoss s
  | .tetherLinkUp partnerSenior partnerRan delay => Sys2Proof.Machine.execTetherLinkUp partnerSenior partnerRan delay s
  | .configurationTransferDone regs stage knots scale => Sys2Proof.Machine.execConfigurationTransferDone regs stage knots scale s
  | .streamItem k => Sys2Proof.Machine.execStreamItem k s
  | .healthTraffic h => Sys2Proof.Machine.execHealthTraffic h s
  | .digestReceived digest void => Sys2Proof.Machine.execDigestReceived digest void s
  | .digestMissing => Sys2Proof.Machine.execDigestMissing s
  | .resyncStart => Sys2Proof.Machine.execResyncStart s
  | .snapshotComplete => Sys2Proof.Machine.execSnapshotComplete s
  | .resyncTimeout => Sys2Proof.Machine.execResyncTimeout s
  | .healthLoss => Sys2Proof.Machine.execHealthLoss s
  | .temperatureSample t0 t1 t2 t3 => Sys2Proof.Machine.execTemperatureSample t0 t1 t2 t3 s
  | .voltageSample vcore vsd vaux => Sys2Proof.Machine.execVoltageSample vcore vsd vaux s
  | .telemetryPacket => Sys2Proof.Machine.execTelemetryPacket s
  | .tapBypass => Sys2Proof.Machine.execTapBypass s
  | .tapSamplePreload => Sys2Proof.Machine.execTapSamplePreload s
  | .tapExtest => Sys2Proof.Machine.execTapExtest s
  | .tapIdcode => Sys2Proof.Machine.execTapIdcode s
  | .tickWordMissing => Sys2Proof.Machine.execTickWordMissing s
  | .listenModeResync c => Sys2Proof.Machine.execListenModeResync c s
  | .busPatternWindowExpiry p => Sys2Proof.Machine.execBusPatternWindowExpiry p s
  | .tetherPllRelock => Sys2Proof.Machine.execTetherPllRelock s
  | .otpProgrammingDone => Sys2Proof.Machine.execOtpProgrammingDone s
  | .snapshotWrite k data => Sys2Proof.Machine.execSnapshotWrite k data s
  | .tapReset => Sys2Proof.Machine.execTapReset s

end Sys2Proof.Machine
end

