-- ==== Sys2Proof/Machine/Step.lean ====
section
/-! DEFINITION. One step of the block: it takes the command at the front of its queue; with an empty queue one clk
passes. -/

namespace Sys2Proof.Machine

/-- With an empty queue one clk of device time passes in a device that is READY (R41, R56; log entry 1), and the wakes that it
decides are made (R334). -/
def idle (s : State) : State := if s.power.phase = .ready then s.passClk.rewakes else s

/-- One step. -/
def step (s : State) : Host.Outcome State Fault Refusal :=
  match s.pending with
  | [] => .next (idle s)
  | c :: rest => exec c { s with pending := rest }

/-- The state with the command that a word spells at the front of its queue: the opcode table gives no row bits, so no
word spells one and the state stays. -/
def State.withFetchWord (s : State) (nbits w : Nat) : State :=
  match Sys2Proof.decodeTableWord nbits w with
  | some c => { s with pending := c :: s.pending }
  | none => s

end Sys2Proof.Machine
end

