-- ==== Sys2Proof/WellFormed.lean ====
section
/-! DEFINITION. Well-formed commands: packets and stream items that can exist (R387). -/

namespace Sys2Proof

/-- A packet holds at most 63 argument words (R387). -/
def Packet.wf (p : Packet) : Bool := decide (p.args.length ≤ 63)

/-- An item of the stream holds a packet, or at most 63 result words. -/
def StreamItem.wf : StreamItem → Bool
  | .hostWrite _ _ _ => true
  | .command _ p _ => p.wf
  | .remoteResult _ _ _ rs => decide (rs.length ≤ 63)

/-- A command is well-formed. The types of the other operands already keep them in range. -/
def Instr.wf : Instr → Bool
  | .nop p | .ident p | .portConfig p | .portMode p | .portTiming p | .portAutorate p | .portAutorateStop p
   | .portRecover p | .filterSet p | .bufferSet p | .bufferRelease p | .queueConfig p | .queueCredit p
   | .queueDrop p | .knotWrite p | .knotListSet p | .scaleWrite p | .profileBind p | .profilePolicy p | .spliceSet p
   | .remoteRead p | .remoteWrite p | .remoteLock p | .remoteUnlock p | .netSleep p | .netWake p | .wakeFilter p
   | .portPower p | .tickConfig p | .commit p | .abandon p | .spareTake p | .spareReturn p | .wearRecord p
   | .tetherConfig p | .switchover p | .ledgerQuery p | .journalRead p | .telemetryRead p | .patchLoad p
   | .selftest p | .badOpcode _ p => p.wf
  | .streamItem i => i.wf
  | .commandWaitTimeout | .handoffReply | .rewoundCommandReply | .registerWrite _ _ | .rcRead _ | .timeLoRead
    | .sysFaultClear | .reacq | .errctrlRelease _ | .retry _ | .rsreq | .qdataPop _ | .qdataPush _ _
    | .qpush2 _ _ | .flush _ | .statusPairHold _ _ _ | .s1Release _ _ _ | .pwHoldWrite _ _
    | .emitWindowWrite _ _ | .knotWindowWrite _ _ | .blockRamWrite _ _ _ | .parityErrorWrite _ _
    | .discardedAccess _ _ _ | .uncorrectableRead _ _ | .powerOnReset | .brownout | .pinReset
    | .clockFaultReset | .thermalReset | .resetRelease _ _ _ | .mainPllLockTimeout | .ready _ _
    | .tickBoundary | .phaseDeadline _ _ | .captureTransfer _ _ | .profileAreaWrite _ | .captureComplete
    | .knotIssue _ _ | .mapComplete | .emitTransfer _ _ _ | .emitComplete | .releaseTime _ _
    | .tickWordReceived _ _ | .tetherTickMark _ _ _ _ | .referenceMissing | .holdoverFallback
    | .frameStart _ _ | .frameSofReceived _ _ | .arbitrationLost _ | .errorDetected _ _
    | .protocolException _ _ | .frameValidReceiver _ _ _ | .frameValidTransmitter _ | .integrationComplete _
    | .recoverySequence _ | .recoveryDelayElapsed _ | .frameBoundary _ | .beaconReady _ | .beaconMissing _
    | .windowClose _ | .receiveStore _ _ | .receiveQueuePush _ | .transmitFetch _ _ | .rateMeasureDone _ _
    | .rateDwellExpiry _ | .eventRecordPush | .eventsLost | .reportEvaluation _ | .hartRequest | .hartReply _
    | .hartTimeout _ | .serviceFrameDispatch _ | .outboundRelease _ _ | .transactionTimeout _
    | .quarantineEnd _ | .prefetchAgeDrop _ | .pollDue _ | .leaseExpiry _ | .hostAnswer | .inboundExpiry _
    | .voteWindowClose _ | .sleepEntry _ | .wakeLine _ | .busPatternWake _ | .umbraFrame _ _ | .tickWake _
    | .timerWake _ | .partnerWake _ | .wakePulseEnd _ | .lmdlyExpiry _ | .blockPowerOff _
    | .blockPowerUpComplete _ | .cellFault _ _ _ | .heartbeatSample _ _ _ | .takeoverLoadDone _
    | .mirrorFrameValid _ _ _ _ | .engineCheckerError _ | .selftestComplete _ _ | .scrubAccess _ _ _
    | .rowCopyDone _ _ | .agingMeasurement _ _ | .leaseGrant _ | .tetherFrameResend _ | .tetherLaneFailure _
    | .tetherPllLoss | .tetherLinkUp _ _ _ | .configurationTransferDone _ _ _ _ | .healthTraffic _
    | .digestReceived _ _ | .digestMissing | .resyncStart | .snapshotComplete | .resyncTimeout | .healthLoss
    | .temperatureSample _ _ _ _ | .voltageSample _ _ _ | .telemetryPacket | .tapBypass | .tapSamplePreload
    | .tapExtest | .tapIdcode | .tickWordMissing | .listenModeResync _ | .busPatternWindowExpiry _
    | .tetherPllRelock | .otpProgrammingDone | .snapshotWrite _ _ | .tapReset => true

end Sys2Proof
end

