-- ==== Sys2Proof/Safety.lean ====
section
/-! DEFINITION. What the claims about the block are stated with: the canonical form of its RAMs, the conditions under
which a command runs, what an ended command packet leaves, and frames. -/

namespace Sys2Proof.Machine
namespace State

/-- Every RAM of the device is in the canonical form of its table: block message RAM, both halves of the signal image,
knot table, scale table and patch RAM. -/
def ramsOk (s : State) : Bool :=
  Sparse.wf 0 s.blockRam && Sparse.wf imgDefault s.captured && Sparse.wf imgDefault s.emit && Sparse.wf 0 s.knots &&
    Sparse.wf 0 s.scales && Sparse.wf 0 s.engine.patch

/-! ### Command packets -/

/-- The engine's next packet can be this one: none stands before it, and it stands first in the command queue without an
uncorrectable word, or the queue is empty and has credit for it (log entry 6). A packet of the tether stream has no
place in the queue. -/
def offers (s : State) (op : Nat) (p : Packet) : Bool :=
  s.engine.behind == [] && (p.src == .stream ||
    match Queue.head (s.queue qCommand).vis with
    | [] => (s.queue qCommand).opened == [] && !(s.queue qCommand).discarding &&
        decide ((packetWords op p).length ≤ s.credit qCommand)
    | h => packetIs op p h && !h.any (·.bad.isSome))

/-- The packet stands in the command queue. -/
def placed (s : State) (op : Nat) (p : Packet) : State :=
  if (s.queue qCommand).vis = [] then s.pushPacket qCommand (packetWords op p) else s

/-- The state once the packet is popped: none waits then (CE_STAT.WAIT). -/
def popped (s : State) (op : Nat) (p : Packet) : State :=
  if p.src = .stream then onlyIf (op == 0x51) (·.modPair fun P => { P with commitTag := some 0 }) (s.wr F.CE_STAT.WAIT 0)
  else ((((s.placed op p).wr F.CE_STAT.WAIT 0).markNow qCommand).dropPacket qCommand).2

/-- The ledger slot of a command that the engine pops now, and the state with its entry open (R404, R405). -/
def entered (s : State) (c : CmdSpec) (p : Packet) : Option (Nat × State) :=
  (s.popped c.opcode p).openEntry p.seq.toNat (c.steps (Operand.args p)) p.track

/-- The ledger slot that a command gets. -/
def slotOf (s : State) (c : CmdSpec) (p : Packet) : Nat := ((s.entered c p).map (·.1)).getD noSlot

/-- The state in which the effect of a command runs: its packet popped, its ledger entry open and started. -/
def begun (s : State) (c : CmdSpec) (p : Packet) : State :=
  match s.entered c p with
  | some (i, s) => (s.modEngine fun g => { g with waiting := none }).modEntry i fun e => { e with state := 1 }
  | none => s

/-- The engine is free, the packet is the next one, and no cause of Table 14-9 makes it wait: the engine pops the
command and starts it in this step (R387, R393, R404 to R406). -/
def free' (s : State) (c : CmdSpec) (p : Packet) : Bool :=
  s.power.phase == .ready && decide (p.args.length ≤ 63) && s.engine.waiting == none && s.engine.rewound == [] &&
    s.engine.handoffs.all (·.ended.isNone) && decide (65 ≤ s.credit qReply) && s.offers c.opcode p &&
    !s.seqOpen p.seq.toNat && (s.entered c p).isSome && (!c.span || s.inSpan) && (!c.staging || !s.locked) &&
    (!p.fence || s.engine.handoffs == [])

/-- The command starts in this step and no check of R389 ends it. -/
def starts (s : State) (c : CmdSpec) (p : Packet) : Bool := s.free' c p && ((s.begun c p).refuse c p).isNone

/-- The reply to a command packet that has ended with a status and results (R391, R403): the reply packet unless QUIET
withholds it, an engine that is free again, and the journal entry of a J command. -/
def replied (s : State) (c : CmdSpec) (p : Packet) (status : Nat) (results : List Nat) (t : State) : Prop :=
  (t.queue qReply).vis = (s.queue qReply).vis ++ (if p.quiet && decide (status ≤ 1) then [] else
      packet ([pack [(c.opcode, 10), (status, 4)], pack [(p.seq.toNat, 6), (results.length, 0)]] ++ results)) ∧
  t.engine.waiting = none ∧ t.engine.behind = [] ∧ t.rd F.CE_STAT.EXEC = 0 ∧ t.rd F.CE_STAT.WAIT = 0 ∧
  (c.journal = true → Sparse.find t.engine.journal (s.rd F.CE_JLOG.NEXT) =
    some ([pack [(c.opcode, 10), (status, 4), (if p.src = .stream then 1 else 0, 2)],
      pack [(p.seq.toNat, 6), (p.args.length, 0)]] ++ words 2 s.tickNo ++ words 2 s.now ++
      [(Operand.args p).headD 0, ((Operand.args p).drop 1).headD 0]))

/-- A command packet has been answered, and its ledger entry is completed under TRACK and freed otherwise (R404,
R405). -/
def answered (s : State) (c : CmdSpec) (p : Packet) (status : Nat) (results : List Nat) (t : State) : Prop :=
  s.replied c p status results t ∧
  ((Sparse.find t.engine.ledger (s.slotOf c p)).map fun e => (e.seq, e.state, e.status)) =
    (if p.track then some (p.seq.toNat, 2, status) else none)

/-- The keys of the register fields in which any command packet may leave a trace: the engine's own status and journal
registers, and the notices, crossings and watermark flags of the command and reply queues. -/
def engineKeys : List Nat :=
  [F.CE_STAT.EXEC.key, F.CE_STAT.WAIT.key, F.CE_JLOG.NEXT.key, F.CE_JLOG.TOTAL.key] ++
    [qCommand, qReply].flatMap fun q =>
      [(F.QMON.HNOT q).key, (F.QMON.LNOT q).key, (F.QMON.HCROSS q).key, (F.QMON.LCROSS q).key, (F.QSTAT.HI q).key,
        (F.QSTAT.LO q).key]

/-- Every live register field but those with the listed keys reads as before. -/
def keepsRegs (s : State) (keys : List Nat) (t : State) : Prop := ∀ f : Field, f.key ∉ keys → t.rd f = s.rd f

/-- Every table entry held by key beside the registers reads as before. -/
def keepsTables (s t : State) : Prop := ∀ k, 0x4000000 ≤ k → t.rdK k = s.rdK k

/-- No queue but the listed ones has changed. -/
def keepsQueues (s : State) (qs : List Nat) (t : State) : Prop := ∀ q, q ∉ qs → t.queue q = s.queue q

/-- The frame of a command packet that acts on nothing but the engine: the units, memories, staging copies and events
of the device are as before. -/
def onlyEngine (s : State) (keys : List Nat) (t : State) : Prop :=
  t = { s with regs := t.regs, recorded := t.recorded, queues := t.queues, engine := t.engine, pair := t.pair } ∧
  t.pair = { s.pair with streamStatus := t.pair.streamStatus, out := t.pair.out, overflow := t.pair.overflow } ∧
  t.engine.patch = s.engine.patch ∧
  t.engine.handoffs = s.engine.handoffs ∧ t.engine.commit = s.engine.commit ∧
  s.keepsRegs (engineKeys ++ keys) t ∧ s.keepsTables t ∧ s.keepsQueues [qCommand, qReply] t

/-- Register values have entered the staging copies of their st fields, and no other staging copy but those of `also`
has changed. -/
def stagesRegs (s : State) (l : List (Reg × Nat)) (also : List Nat) (t : State) : Prop :=
  (∀ e ∈ l, ∀ f ∈ e.1, f.acc = .st → t.staged f = f.of e.2) ∧
    ∀ k, (∀ e ∈ l, ∀ f ∈ e.1, f.acc = .st → f.key ≠ k) → k ∉ also → Sparse.find t.stage k = Sparse.find s.stage k

/-- The words of a table entry have entered its staging copies, and no other staging copy but those of `also` has
changed. -/
def stagesWords (s : State) (key : Nat) (ws also : List Nat) (t : State) : Prop :=
  (∀ i, i < ws.length → t.stagedK (key + i) = ws.getD i 0) ∧
    ∀ k, (k < key ∨ key + ws.length ≤ k) → k ∉ also → Sparse.find t.stage k = Sparse.find s.stage k

/-- The frame of a staging command: `onlyEngine`, but that staging copies may change. -/
def onlyStages (s t : State) : Prop :=
  t = { s with regs := t.regs, recorded := t.recorded, stage := t.stage, stageWas := t.stageWas, queues := t.queues
               engine := t.engine, pair := t.pair } ∧
  t.pair = { s.pair with streamStatus := t.pair.streamStatus, out := t.pair.out, overflow := t.pair.overflow } ∧
  t.engine.patch = s.engine.patch ∧
  t.engine.handoffs = s.engine.handoffs ∧ t.engine.commit = s.engine.commit ∧
  s.keepsRegs engineKeys t ∧ s.keepsTables t ∧ s.keepsQueues [qCommand, qReply] t

/-- A command that has been handed off to its unit (R394): its record stands last among the open ones, and its reply
is still to come. -/
def handedOff (s : State) (c : CmdSpec) (p : Packet) (tag : Nat) (t : State) : Prop :=
  t.engine.handoffs = s.engine.handoffs ++
    [⟨c.opcode, p.seq.toNat, p.quiet, p.args.length, p.args, p.src, s.slotOf c p, tag, none⟩] ∧
  t.queue qReply = s.queue qReply ∧ t.engine.waiting = none ∧ t.rd F.CE_STAT.EXEC = 0 ∧ t.rd F.CE_STAT.WAIT = 0

/-! ### Cells on their bus -/

/-- A device that is READY, and the cell is on the bus of port `n`. -/
def bussed (s : State) (c n : Nat) : Bool := s.power.phase == .ready && s.busPort c == some n

/-- The cell takes part in the bus of port `n`: it has integrated and is not bus-off (Table 6-2). -/
def online (s : State) (c n : Nat) : Bool := s.bussed c n && (s.conf c == 1 || s.conf c == 2)

/-- Frame `f` of a cell may start on the bus of port `n` in this clk: the frame is ready and still offered, the port is
ACTIVE and does not listen, the bus is idle or the cell joins a frame whose SOF it takes as its own, and window, guard,
FD option and solitude pacing allow it (R75, R76, R80, R99, R101, Tables 6-7 and 6-8). -/
def mayStart (s : State) (c n : Nat) (f : TxFrame) : Bool :=
  s.readyFrame c n == some f && s.stillOffered n f && s.portState n == 0 && !s.listens n && !s.searching c &&
    !(s.cell c).stopped && (s.cell c).attempt.isNone && (s.cell c).flag.isEmpty &&
    (s.testMode n == 2 || (s.cell c).rxSof == some (s.tick.time - 2) || (s.busIdle n && (s.cell c).rxSof.isNone)) &&
    (s.compat n || s.origin n != 0x3FF) && s.frameFree c n f && s.paceFree c n

/-- The error counters of a cell count, and an error of an own or received frame starts a flag (Table 6-1, row 12). -/
def counts (s : State) (c n : Nat) : Bool :=
  !s.listens n && s.testMode n == 0 && !s.searching c && !(s.cell c).stopped

/-- What the error counters of a cell become after an error that does not lead to BUS_OFF (R153, R156). -/
def countersAre (s : State) (c dT dR : Nat) (t : State) : Prop :=
  t.tec c = s.tec c + dT ∧ t.rec' c = min (s.rec' c + dR) 255

/-- Words of block RAM other than those that `hit` names read as before. -/
def keepsRam (s : State) (hit : Nat → Nat → Prop) (t : State) : Prop :=
  ∀ b i, i < 32768 → ¬ hit b i → t.ram b i = s.ram b i

/-- The words of the status pairs of port `n` in its block. -/
def pairWord (n b i : Nat) : Prop := b = n / 8 ∧ 0x1C00 + n % 8 * 0x100 ≤ i ∧ i < 0x1D00 + n % 8 * 0x100

/-- A command has posted event records behind those posted before, and one of them has this class, code and unit. -/
def postsEvent (s : State) (cls code unit : Nat) (t : State) : Prop :=
  ∃ l, t.merger.posted = s.merger.posted ++ l ∧ ∃ r ∈ l, r.cls = cls ∧ r.code = code ∧ r.unit = unit

/-- The active device of a pair whose link is up sends an item of the stream over the tether, unless the entries of its
forwarding buffer are taken (R373; log entry 98); nothing else of the pair changes. -/
def forwards (s : State) (i : StreamItem) (t : State) : Prop :=
  let waiting := s.pair.out.filter fun e => s.clk < e.1 + 400
  let entries := waiting.filter fun e => match e.2 with | .stream _ => true | _ => false
  t.pair =
    if s.rd F.SP_PSTAT.ROLE = 1 ∧ s.rd F.SP_PSTAT.LINK = 2 then
      if entries.length < 4096 then { s.pair with out := waiting ++ [(s.clk, .stream i)] }
      else { s.pair with out := waiting, overflow := true }
    else s.pair

end State
end Sys2Proof.Machine
end

