-- ==== Sys2Proof/Certificates/Slice0/Obligations.lean ====
section
/-! DEFINITION. The statements for the provers. -/

open Sys2Proof Sys2Proof.Machine

/-! ### The queue of commands -/

/-- A step takes the command at the front of the queue and runs it with the rest of the queue: for every command and
every state. With an empty queue the block idles: in a READY device that has no slew to make and no rate correction
one clk passes, in which device time grows by 1 and may cross the next boundary (R42, R56), and the wakes that a sleep
entry has held for it are made (R334, log entry 119); a device that is not READY stays as it is. That an empty queue
lets a clk pass is the model's choice (log entry 1). -/
def Obligations.StepRunsFrontCommand : Prop :=
  (∀ (c : Instr) (rest : List Instr) (s : State),
    step { s with pending := c :: rest } = exec c { s with pending := rest }) ∧
  (∀ s : State, s.pending = [] →
    (s.power.phase ≠ .ready → step s = .next s) ∧
    (s.power.phase = .ready → s.tick.slew = 0 → s.rateNow = 0 → s.tick.rateAcc.natAbs < 2 ^ 24 →
      step s = .next (State.rewakes { s with tick := { s.tick with
        time := s.tick.time + 1, clk := s.tick.clk + 1
        crossed := if s.tick.crossed = none ∧ s.nextBoundary ≤ s.tick.time + 1 then some (s.tick.time + 1)
          else s.tick.crossed } })))

/-- Every well-formed command ends in a next state, in every state of the device: no command of the opcode table is
refused, and a fault answers only packets and stream items that cannot exist (R387). -/
def Obligations.WellFormedCommandsComplete : Prop :=
  ∀ (i : Instr) (s : State),
    (i.wf = true → ∃ t, exec i s = .next t) ∧ (i.wf = false → exec i s = .fault .illFormed)

/-! ### Command packets that only read (chapter 14) -/

/-- NOP, IDENT, LEDGER_QUERY, JOURNAL_READ and TELEMETRY_READ complete with status 0x00 and the result words of their
rows, and leave everything but the engine, its two queues and its own registers as it was. LEDGER_QUERY reports the
ledger as it is once its own entry is open. TELEMETRY_READ of items past 0x6F completes with status 0x09 (R403 to
R405, R456, Table 14-4). The row's packet is pushed, popped and started in one step (log entry 6, DEDUCED). -/
def Obligations.ReadCommandsAnswer : Prop :=
  ∀ (p : Packet) (s : State),
    (s.starts cmdNop p = true →
      ∃ t, exec (.nop p) s = .next t ∧ s.answered cmdNop p 0x00 [] t ∧ s.onlyEngine [] t) ∧
    (s.starts cmdIdent p = true →
      ∃ t, exec (.ident p) s = .next t ∧ s.onlyEngine [] t ∧
        s.answered cmdIdent p 0x00 [0x09612, 0x10, Config.romVersion % 2 ^ 18, s.rd F.CE_PATCH.PID,
          s.rd F.SYS_SYSADDR.SYSADDR, pack [(s.rd F.SP_PSTAT.ROLE, 1), (s.rd F.SP_PSTAT.SENIOR, 0)]] t) ∧
    (s.starts cmdLedgerQuery p = true →
      ∃ t, exec (.ledgerQuery p) s = .next t ∧ s.onlyEngine [] t ∧
        let q := (s.begun cmdLedgerQuery p).queried (Operand.args p) p.seq.toNat
        s.answered cmdLedgerQuery p 0x00 (pack [(q.2, 9), (q.1.length, 0)] :: q.1.flatMap fun e =>
          match e.2.bind fun i => Sparse.find (s.begun cmdLedgerQuery p).engine.ledger i with
          | some x => entryPair x
          | none => [pack [(e.1, 6), (3, 4)], 0]) t) ∧
    (s.starts cmdJournalRead p = true →
      ∃ t, exec (.journalRead p) s = .next t ∧ s.onlyEngine [] t ∧
        let w := Operand.word (Operand.args p) 2
        s.answered cmdJournalRead p 0x00 (s.rd F.CE_JLOG.NEXT :: (List.range (bitsOf w 14 12)).flatMap fun i =>
          Sparse.get (List.replicate 8 0) s.engine.journal ((bitsOf w 11 0 + i) % 4096)) t) ∧
    (s.starts cmdTelemetryRead p = true →
      ∃ t, exec (.telemetryRead p) s = .next t ∧ s.onlyEngine [] t ∧
        let w := Operand.word (Operand.args p) 2
        s.answered cmdTelemetryRead p 0x00 ((List.range (bitsOf w 13 8)).map fun i =>
          s.telemetryItem (bitsOf w 7 0 + i)) t) ∧
    (s.free' cmdTelemetryRead p = true → p.args.length = 1 →
      let w := Operand.word (Operand.args p) 2
      0x70 < bitsOf w 7 0 + bitsOf w 13 8 →
      ∃ t, exec (.telemetryRead p) s = .next t ∧ s.answered cmdTelemetryRead p 0x09 [] t ∧
        s.onlyEngine [F.CE_CNT.BADARG.key] t)

/-! ### Staging commands (R11, R388, R396, R401) -/

/-- PORT_CONFIG, PORT_MODE, PORT_TIMING, TICK_CONFIG, QUEUE_CONFIG, SPLICE_SET, WAKE_FILTER, KNOT_LIST_SET and
TETHER_CONFIG complete with status 0x01; the st fields of the registers that they name (by SEL, or by the unit) take
their values in the staging copies, every other staging copy and every live register stay, and the journal records the
command. Where KNOT_LIST_SET names a list more than once, its last value stands. A SPLICE_SET that names a
compatibility port completes with status 0x09 and stages nothing (R119). The row's packet is pushed, popped and
started in one step (log entry 6). -/
def Obligations.RegisterStaging : Prop :=
  ∀ (p : Packet) (s : State),
    let a := Operand.args p
    let h := State.home (Operand.port a)
    (s.starts cmdPortConfig p = true →
      ∃ t, exec (.portConfig p) s = .next t ∧ s.answered cmdPortConfig p 0x01 [] t ∧ s.onlyStages t ∧
        s.stagesRegs ((Operand.block a 3 5).map fun e => ((configRegs h).getD e.1 [], e.2)) [] t) ∧
    (s.starts cmdPortMode p = true →
      ∃ t, exec (.portMode p) s = .next t ∧ s.answered cmdPortMode p 0x01 [] t ∧ s.onlyStages t ∧
        s.stagesRegs [(R.CL_OPMODE h, bitsOf (Operand.item a) 2 0)] [] t) ∧
    (s.starts cmdPortTiming p = true →
      ∃ t, exec (.portTiming p) s = .next t ∧ s.answered cmdPortTiming p 0x01 [] t ∧ s.onlyStages t ∧
        s.stagesRegs ((Operand.block a 3 6).map fun e => ((timingRegs h (Operand.cand a)).getD e.1 [], e.2)) [] t) ∧
    (s.starts cmdTickConfig p = true →
      ∃ t, exec (.tickConfig p) s = .next t ∧ s.answered cmdTickConfig p 0x01 [] t ∧ s.onlyStages t ∧
        s.stagesRegs ((Operand.block a 2 8).map fun e => (tickRegs.getD e.1 [], e.2)) [] t) ∧
    (s.starts cmdQueueConfig p = true →
      ∃ t, exec (.queueConfig p) s = .next t ∧ s.answered cmdQueueConfig p 0x01 [] t ∧ s.onlyStages t ∧
        s.stagesRegs [((R.QCFG (qidArg a)).filter State.classHas, Operand.dword a 3), (R.QWM (qidArg a), Operand.dword a 5)]
          [] t) ∧
    (s.starts cmdSpliceSet p = true → spliceCompat a s = false →
      ∃ t, exec (.spliceSet p) s = .next t ∧ s.answered cmdSpliceSet p 0x01 [] t ∧ s.onlyStages t ∧
        s.stagesRegs ((spliceRegs a).map fun e => (e.1, Operand.dword a e.2))
          [touchWindow (bitsOf (Operand.word a 2) 3 0)] t) ∧
    (s.starts cmdSpliceSet p = true → spliceCompat a s = true →
      ∃ t, exec (.spliceSet p) s = .next t ∧ s.answered cmdSpliceSet p 0x09 [] t ∧
        s.onlyEngine [F.CE_CNT.BADARG.key] t ∧ t.stage = s.stage) ∧
    (s.starts cmdWakeFilter p = true →
      ∃ t, exec (.wakeFilter p) s = .next t ∧ s.answered cmdWakeFilter p 0x01 [] t ∧ s.onlyStages t ∧
        s.stagesRegs ((wakeRegs a).map fun e => (e.1, Operand.dword a e.2)) [] t) ∧
    (s.starts cmdKnotListSet p = true →
      ∃ t, exec (.knotListSet p) s = .next t ∧ s.answered cmdKnotListSet p 0x01 [] t ∧ s.onlyStages t ∧
        ∀ j, j < a.length / 4 →
          (∀ j', j < j' → j' < a.length / 4 → (headItem a j').1 ≠ (headItem a j).1) →
          ∀ f ∈ R.GW_LISTHEAD (headItem a j).1, f.acc = .st → t.staged f = f.of (headItem a j).2) ∧
    (s.starts cmdTetherConfig p = true →
      ∃ t, exec (.tetherConfig p) s = .next t ∧ s.answered cmdTetherConfig p 0x01 [] t ∧ s.onlyStages t ∧
        s.stagesRegs [(R.SP_PAIR, Operand.dword a 2)] [] t)

/-- FILTER_SET, BUFFER_SET, PROFILE_BIND, PROFILE_POLICY and PORT_POWER complete with status 0x01 and stage the words
of their table entry with its reserved bits at 0; no live register or table entry changes. A PROFILE_BIND that names a
compatibility port completes with status 0x09 and stages nothing (R119). The row's packet is pushed, popped
and started in one step (log entry 6). -/
def Obligations.TableStaging : Prop :=
  ∀ (p : Packet) (s : State),
    let a := Operand.args p
    let n := Operand.port a
    (s.starts cmdFilterSet p = true →
      ∃ t, exec (.filterSet p) s = .next t ∧ s.answered cmdFilterSet p 0x01 [] t ∧ s.onlyStages t ∧
        s.stagesWords (filtKey n (Operand.item a) 0) (filterWords (entryOf a 3 6 0)) [] t) ∧
    (s.starts cmdBufferSet p = true →
      ∃ t, exec (.bufferSet p) s = .next t ∧ s.answered cmdBufferSet p 0x01 [] t ∧ s.onlyStages t ∧
        t.stagedK (touchBuffer n (Operand.item a)) = 1 ∧
        s.stagesWords (descKey n (Operand.item a) 0) (descWords (entryOf a 3 4 0)) [touchBuffer n (Operand.item a)] t) ∧
    (s.starts cmdProfileBind p = true → s.compatSet (Binding.of (bindWord a)).port = true →
      ∃ t, exec (.profileBind p) s = .next t ∧ s.answered cmdProfileBind p 0x09 [] t ∧
        s.onlyEngine [F.CE_CNT.BADARG.key] t ∧ t.stage = s.stage) ∧
    (s.starts cmdProfileBind p = true → s.compatSet (Binding.of (bindWord a)).port = false →
      ∃ t, exec (.profileBind p) s = .next t ∧ s.answered cmdProfileBind p 0x01 [] t ∧ s.onlyStages t ∧
        s.stagesWords (bindKey (bitsOf (Operand.word a 2) 10 0) 0) ((List.range 12).map (bindWord a)) [] t) ∧
    (s.starts cmdProfilePolicy p = true →
      ∃ t, exec (.profilePolicy p) s = .next t ∧ s.answered cmdProfilePolicy p 0x01 [] t ∧ s.onlyStages t ∧
        s.stagesWords (policyKey (bitsOf (Operand.word a 2) 7 0) 0) (entryOf a 3 6 0) [] t) ∧
    (s.starts cmdPortPower p = true →
      ∃ t, exec (.portPower p) s = .next t ∧ s.answered cmdPortPower p 0x01 [] t ∧ s.onlyStages t ∧
        s.stagesWords (powerKey n) [bitsOf (Operand.item a) 2 0 + 1] [] t)

/-! ### Immediate commands -/

/-- QUEUE_CREDIT sets CEIL of its queue at once, discards no word, and leaves CREDIT at CEIL less the words that the
queue holds, or 0; QUEUE_DROP discards the rest of the consumer's packet, or the first visible packet, and reports how
many words it has discarded; the words that the queue's unit has pushed by then are in the queue (R222). A value that
CEIL cannot take, and a queue that QUEUE_DROP does not accept, are answered with status 0x09 (R221, R232). KNOT_WRITE
and SCALE_WRITE, in EMIT or HOUSE and at least 128 clk before the boundary, write their knots or entries into the
table at once: every word of each has its new value, every other word of the table stays (R260, R401). The row's
packet is pushed, popped and started in one step (log entry 6). -/
def Obligations.ImmediateCommands : Prop :=
  (∀ (p : Packet) (s : State),
    let a := Operand.args p
    let q := qidArg a
    (s.starts cmdQueueCredit p = true →
      ∃ t, exec (.queueCredit p) s = .next t ∧ s.answered cmdQueueCredit p 0x00 [] t ∧
        t.rd (F.QCTL.CEIL q) = bitsOf (Operand.word a 3) 15 0 ∧ s.onlyEngine [(F.QCTL.CEIL q).key] t ∧
        (s.queueOn q = true → t.credit q = bitsOf (Operand.word a 3) 15 0 - (t.queue q).fill)) ∧
    (s.free' cmdQueueCredit p = true → a.length = 2 →
      (bitsOf (Operand.word a 3) 15 0 < 72 ∨ queueCap q < bitsOf (Operand.word a 3) 15 0) →
      ∃ t, exec (.queueCredit p) s = .next t ∧ s.answered cmdQueueCredit p 0x09 [] t ∧
        s.onlyEngine [F.CE_CNT.BADARG.key] t) ∧
    (s.starts cmdQueueDrop p = true →
      let Q := (s.settle q).queue q
      ∃ t, exec (.queueDrop p) s = .next t ∧
        s.answered cmdQueueDrop p 0x00 [(Queue.head Q.vis).length % 2 ^ 13] t ∧
        (t.queue q).vis = Q.vis.drop (Queue.head Q.vis).length ∧
        (t.queue q).opened = Q.opened ∧ s.keepsQueues [qCommand, qReply, q] t ∧
        t = { s with regs := t.regs, recorded := t.recorded, queues := t.queues, engine := t.engine, pair := t.pair }) ∧
    (s.free' cmdQueueDrop p = true → a.length = 1 → s.dropOk q = false →
      ∃ t, exec (.queueDrop p) s = .next t ∧ s.answered cmdQueueDrop p 0x09 [] t ∧
        s.onlyEngine [F.CE_CNT.BADARG.key] t)) ∧
  (∀ (p : Packet) (s : State),
    let a := Operand.args p
    (s.starts cmdKnotWrite p = true →
      ∃ t, exec (.knotWrite p) s = .next t ∧ s.answered cmdKnotWrite p 0x00 [] t ∧
        (∀ j i, j < (a.length - 1) / 4 → i < 4 →
          t.knotWord (knotArg a + j) i = wordOf ((entryOf a 3 4 j).getD i 0)) ∧
        (∀ x, (x < 4 * knotArg a ∨ 4 * (knotArg a + (a.length - 1) / 4) ≤ x) →
          Sparse.get 0 t.knots x = Sparse.get 0 s.knots x) ∧
        s.keepsRegs State.engineKeys t ∧
        t = { s with regs := t.regs, recorded := t.recorded, queues := t.queues, engine := t.engine, pair := t.pair, knots := t.knots, wear := t.wear }) ∧
    (s.starts cmdScaleWrite p = true →
      ∃ t, exec (.scaleWrite p) s = .next t ∧ s.answered cmdScaleWrite p 0x00 [] t ∧
        (∀ j i, j < (a.length - 1) / 3 → i < 3 →
          t.scaleWord (scaleArg a + j) i = wordOf ((entryOf a 3 3 j).getD i 0)) ∧
        (∀ x, (x < 3 * scaleArg a ∨ 3 * (scaleArg a + (a.length - 1) / 3) ≤ x) →
          Sparse.get 0 t.scales x = Sparse.get 0 s.scales x) ∧
        s.keepsRegs State.engineKeys t ∧
        t = { s with regs := t.regs, recorded := t.recorded, queues := t.queues, engine := t.engine, pair := t.pair, scales := t.scales, wear := t.wear }))

/-- PATCH_LOAD writes its words into the patch RAM from OFS on; with ACT = 0 it reports the active patch, with ACT = 1
it activates a good image, and an image that fails its check leaves no patch active (R408, R409). While a handed-off
command is open it completes with status 0x0A and writes nothing. The row's packet is pushed, popped and started in
one step (log entry 6). -/
def Obligations.PatchLoad : Prop :=
  ∀ (p : Packet) (s : State), s.starts cmdPatchLoad p = true →
    let a := Operand.args p
    let ofs := bitsOf (Operand.word a 2) 11 0
    (s.engine.handoffs ≠ [] →
      ∃ t, exec (.patchLoad p) s = .next t ∧ s.answered cmdPatchLoad p 0x0A [] t ∧ s.onlyEngine [] t) ∧
    (s.engine.handoffs = [] →
      ∃ t, exec (.patchLoad p) s = .next t ∧
        (∀ i, i < a.length - 1 → t.patchWord (ofs + i) = (wordOf ((a.drop 1).getD i 0)).toNat) ∧
        (∀ i, (i < ofs ∨ ofs + (a.length - 1) ≤ i) → t.patchWord i = s.patchWord i) ∧
        (bitOf (Operand.word a 2) 17 = false → s.answered cmdPatchLoad p 0x00 [t.rd F.CE_PATCH.PID] t) ∧
        (bitOf (Operand.word a 2) 17 = true → t.patchGood = true →
          s.answered cmdPatchLoad p 0x00 [t.patchWord 0] t ∧ t.rd F.CE_STAT.PATCH = 1 ∧
          t.rd F.CE_PATCH.PID = t.patchWord 0 ∧ t.rd F.CE_PATCH.NWORDS = t.patchWord 1 ∧ s.postsEvent 0x01 0x03 0 t) ∧
        (bitOf (Operand.word a 2) 17 = true → t.patchGood = false →
          s.answered cmdPatchLoad p 0x09 [] t ∧ t.rd F.CE_STAT.PATCH = 0 ∧ t.rd F.CE_PATCH.PID = 0 ∧
          s.postsEvent 0x01 0x04 0 t))

/-! ### COMMIT and ABANDON -/

/-- COMMIT, where no commit waits: if its checks pass it answers 0x00 with the tick that it makes live, sets the lock
and leaves every staging copy and every other live register as it was; if a check fails it answers 0x09 with the
number of the check and the unit, and nothing else has changed. A further COMMIT during the lock answers with the same
tick, and its ledger entry completes at the same boundary (R396 to R398, R404; that both entries complete together is
log entry 23). A COMMIT in the boundary clk in which another goes live is a commit of its own (R44). The row's packet
is pushed, popped and started in one step (log entry 6). -/
def Obligations.CommitLocks : Prop :=
  ∀ (p : Packet) (s : State), s.starts cmdCommit p = true →
    let u := s.begun cmdCommit p
    (s.engine.commit = none → u.commitFails = none →
      ∃ t, exec (.commit p) s = .next t ∧
        s.replied cmdCommit p 0x00 (0 :: words 2 (s.tickNo + 1 + u.commitSkip p)) t ∧
        t.rd F.CE_STAT.LOCK = 1 ∧ t.rd F.CE_COMMIT.TICKNO = (s.tickNo + 1 + u.commitSkip p) % 2 ^ 36 ∧
        t.engine.commit = some ⟨p.seq.toNat, s.slotOf cmdCommit p, u.commitSkip p, []⟩ ∧ t.stage = s.stage ∧
        (p.src = .host → s.keepsRegs (State.engineKeys ++ [F.CE_STAT.LOCK.key, F.CE_COMMIT.TICKNO.key]) t)) ∧
    (∀ check unit, s.engine.commit = none → u.commitFails = some (check, unit) →
      ∃ t, exec (.commit p) s = .next t ∧ s.answered cmdCommit p 0x09 [pack [(check, 12), (unit, 0)]] t ∧
        t.stage = s.stage ∧ t.engine.commit = none ∧ (p.src = .host → s.onlyEngine [F.CE_CNT.BADARG.key] t)) ∧
    (s.engine.commit ≠ none → s.stageShut = false →
      ∃ t, exec (.commit p) s = .next t ∧ s.replied cmdCommit p 0x00 (0 :: words 2 (s.rd F.CE_COMMIT.TICKNO)) t ∧
        t.engine.commit = s.engine.commit.map fun c => { c with others := c.others ++ [s.slotOf cmdCommit p] }) ∧
    (s.stageShut = true → s.engine.next = none → u.commitFails = none →
      ∃ t, exec (.commit p) s = .next t ∧
        s.replied cmdCommit p 0x00 (0 :: words 2 (s.tickNo + 1 + u.commitSkip p)) t ∧
        t.rd F.CE_COMMIT.TICKNO = (s.tickNo + 1 + u.commitSkip p) % 2 ^ 36 ∧ t.stage = s.stage ∧
        t.engine.commit = s.engine.commit ∧
        t.engine.next = some ⟨p.seq.toNat, s.slotOf cmdCommit p, u.commitSkip p - 1, []⟩) ∧
    (s.stageShut = true → s.engine.next ≠ none →
      ∃ t, exec (.commit p) s = .next t ∧ s.replied cmdCommit p 0x00 (0 :: words 2 (s.rd F.CE_COMMIT.TICKNO)) t ∧
        t.engine.commit = s.engine.commit ∧
        t.engine.next = s.engine.next.map fun c => { c with others := c.others ++ [s.slotOf cmdCommit p] })

/-- ABANDON makes every staging copy equal to its live value and completes with status 0x00; a commit that waits for
its boundary is cancelled, its lock ends and event 0x02 reports it. No live register but those of the engine changes
(R399). In the boundary clk of a commit that goes live, the staging copies take the values that go live, that commit
is not cancelled, and one that waits behind it is (R44, R410). The row's packet is pushed, popped and started in one
step (log entry 6). -/
def Obligations.AbandonDiscards : Prop :=
  ∀ (p : Packet) (s : State), s.starts cmdAbandon p = true →
    ∃ t, exec (.abandon p) s = .next t ∧ s.replied cmdAbandon p 0x00 [] t ∧
      s.keepsRegs (State.engineKeys ++ [F.CE_STAT.LOCK.key]) t ∧ s.keepsTables t ∧
      (s.stageShut = false → t.stage = [] ∧ (∀ f : Field, t.staged f = t.rd f) ∧ t.engine.commit = none ∧
        (s.engine.commit ≠ none → t.rd F.CE_STAT.LOCK = 0 ∧ s.postsEvent 0x01 0x02 0 t)) ∧
      (s.stageShut = true → t.stage = s.stageWas.getD s.stage ∧ t.engine.commit = s.engine.commit ∧
        t.engine.next = none ∧ t.rd F.CE_STAT.LOCK = s.rd F.CE_STAT.LOCK ∧
        (s.engine.next ≠ none → s.postsEvent 0x01 0x02 0 t)) ∧
      t = { s with regs := t.regs, recorded := t.recorded, stage := t.stage, queues := t.queues, engine := t.engine, merger := t.merger, pair := t.pair }

/-! ### Status decisions and waits (R389, R393, R225, R394) -/

/-- An opcode that Table 14-4 does not list is answered with status 0x08, a command whose LEN or arguments the table
does not allow with status 0x09; each is counted in CE_CNT and changes nothing else (R389). A command whose wait cause
still holds when WAITLIM boundaries have passed completes with status 0x18 and has no effect (R393); the owed reply of
a rewound command packet (R225), and that of a handed-off command that has ended (R394), are written once the reply
queue has credit for the whole packet. The row's packet is pushed, popped and started in one step (log entry 6). -/
def Obligations.StatusDecisions : Prop :=
  (∀ (p : Packet) (s : State),
    (∀ op : BitVec 8, (specOf op.toNat).listed = false → s.free' (specOf op.toNat) p = true →
      ∃ t, exec (.badOpcode op p) s = .next t ∧ s.answered (specOf op.toNat) p 0x08 [] t ∧
        t.rd F.CE_CNT.BADOP = min (s.rd F.CE_CNT.BADOP + 1) 511 ∧ s.onlyEngine [F.CE_CNT.BADOP.key] t) ∧
    (s.free' cmdNop p = true → p.args ≠ [] →
      ∃ t, exec (.nop p) s = .next t ∧ s.answered cmdNop p 0x09 [] t ∧
        t.rd F.CE_CNT.BADARG = min (s.rd F.CE_CNT.BADARG + 1) 511 ∧ s.onlyEngine [F.CE_CNT.BADARG.key] t) ∧
    (s.free' cmdPortMode p = true → (p.args.length ≠ 1 ∨ Operand.portOk (Operand.args p) = false) →
      ∃ t, exec (.portMode p) s = .next t ∧ s.answered cmdPortMode p 0x09 [] t ∧
        t.rd F.CE_CNT.BADARG = min (s.rd F.CE_CNT.BADARG + 1) 511 ∧ s.onlyEngine [F.CE_CNT.BADARG.key] t)) ∧
  (∀ s : State, s.power.phase = .ready →
    (∀ w, s.engine.waiting = some w → s.engine.behind = [] → w.slot < 256 → s.engine.rewound = [] →
      s.engine.handoffs = [] → 2 ≤ s.credit qReply → s.rd F.CE_CFG.WAITLIM ≤ w.boundaries → (specOf w.opcode).opcode = w.opcode →
      s.waitCause (specOf w.opcode) w.pkt true ≠ 0 →
      ∃ t, exec .commandWaitTimeout s = .next t ∧ t.engine.waiting = none ∧
        t.rd F.CE_CNT.WAITOUT = min (s.rd F.CE_CNT.WAITOUT + 1) 511 ∧ t.stage = s.stage ∧
        (t.queue qReply).vis = (s.queue qReply).vis ++
          packet [pack [(w.opcode, 10), (0x18, 4)], pack [(w.pkt.seq.toNat, 6)]]) ∧
    (∀ r rest, s.engine.waiting = none → s.engine.behind = [] → s.engine.rewound = r :: rest → 2 ≤ s.credit qReply →
      ∃ t, exec .rewoundCommandReply s = .next t ∧ t.engine.rewound = rest ∧
        (t.queue qReply).vis = (s.queue qReply).vis ++ packet [pack [(r.opcode, 10), (r.status, 4)], pack [(r.seq, 6)]]) ∧
    (∀ h rest st rs, s.engine.waiting = none → s.engine.behind = [] → s.engine.handoffs = h :: rest → h.ended = some (st, rs) → h.quiet = false →
      2 + rs.length ≤ s.credit qReply →
      ∃ t, exec .handoffReply s = .next t ∧ t.engine.handoffs = rest ∧
        (t.queue qReply).vis = (s.queue qReply).vis ++
          packet ([pack [(h.opcode, 10), (st, 4)], pack [(h.seq, 6), (rs.length, 0)]] ++ rs)))


/-! ### Frames on a bus (chapters 3 to 6) -/

/-- FRAME_START: a frame that may start is the cell's attempt from this clk on, with the bits that it sends; its
buffer counts as started. A transmitter of a native frame with BRS measures its transceiver delay under TDCE. Where no
frame may start, nothing changes. No word of memory changes. FRAME_SOF_RECEIVED: a receiver takes the SOF timestamp
two clk before the present one (R186, R130), and the bus is busy. ARBITRATION_LOST: the transmitter's attempt ends, it
receives the frame, whose SOF timestamp is two clk before its SOF edge, and its buffers stay pending; its error
counters stay (R77, R186, R203). That an attempt which joins a running SOF has that SOF's time is the model's reading
(log entry 32). `r` is the state before the wakes that a sleep entry has held are decided, and `s` the state after
(R334, log entry 119). -/
def Obligations.FrameStartAndArbitration : Prop :=
  (∀ (c : CellId) (n : Nat) (tdc : Option (BitVec 8)) (r : State), r.power.phase = .ready →
    let s := r.rewakes
    s.online c n = true →
    (∀ f, s.mayStart c n f = true →
      ∃ t, exec (.frameStart c tdc) r = .next t ∧
        t = { s with regs := t.regs, recorded := t.recorded, cells := t.cells, ports := t.ports } ∧
        (t.cell c).ready = (if f.src = .beacon then (s.cell c).ready else none) ∧
        (t.cell c).attempt = some ⟨f, s.tick.time, s.bitsSent c n f, false⟩ ∧
        (∀ d, f.src = .buffer d → d ∈ (t.port n).started ∧ (t.port n).pend = (s.port n).pend) ∧
        (∀ v, tdc = some v → s.compat n = false → hBrs (f.w 1) = true → s.flag (F.CL_TDC.TDCE (State.home n)) = true →
          max v.toNat (s.rd (F.CL_TDC.TDCF (State.home n))) ≤ 127 →
          t.rd (F.CL_TDCSTAT.TDCV c) = max v.toNat (s.rd (F.CL_TDC.TDCF (State.home n))) ∧
            t.rd (F.CL_TDCSTAT.VALID c) = 1)) ∧
    ((∀ f, s.mayStart c n f = false) → exec (.frameStart c tdc) r = .next s)) ∧
  (∀ (c : CellId) (n : Nat) (r : State), r.power.phase = .ready →
    let s := r.rewakes
    s.online c n = true →
    (∀ head, (s.cell c).attempt = none → (s.cell c).stopped = false → s.testMode n ≠ 2 → s.arState c ≠ 1 →
      ∃ t, exec (.frameSofReceived c head) r = .next t ∧ (t.cell c).rxSof = some (s.tick.time - 2) ∧
        (t.port n).busySince.isSome ∧ t.blockRam = s.blockRam) ∧
    (∀ a (edge : BitVec 54) head, (s.cell c).attempt = some a →
      ∃ t, exec (.arbitrationLost ⟨c, edge, head⟩) r = .next t ∧ (t.cell c).attempt = none ∧
        (t.cell c).ready = (s.cell c).ready ∧
        (t.cell c).rxSof = some ((s.cell c).rxSof.getD (edge.toNat - 2)) ∧ (t.port n).pend = (s.port n).pend ∧
        t.tec c = s.tec c ∧ t.rec' c = s.rec' c ∧ t.blockRam = s.blockRam))

/-- ERROR_DETECTED, for a cell whose counters count and that stays below a transmit error count of 256. `bits`: what
the cell has sampled from SOF on, or from the start of its own flag on where it sends one. An error of an own or
received frame is captured, starts a flag of six bits (dominant but in ERROR_PASSIVE), ends an own attempt and adds 8
to TEC or 1 to REC, with the two exceptions of Table 6-1 (rows 5 and 6); the errors inside and after a flag add 8 to
the counter of its role, and a dominant bit in its delimiter, or in IFS on a native port, starts a new flag; an
overload frame, and the flag after a dominant last bit of EOF, add nothing (R89 to R91, R109, R153, R156). Errors
inside and excess dominance after the flag that follows a dominant last bit of EOF count as after any flag (log entry
92, the model's choice), a flag after an overload frame keeps the role of the flag before (log entry 36), and an
overload frame after that bit counts in OVLD (log entry 113, the model's choice). A listening cell that decodes again
after an error records a dominant bit among the first two of IFS as a form error, and stops again (R163, Table 3-4).
`r` is the state before the wakes that a sleep entry has held are decided, and `s` the state after (R334, log entry
119). -/
def Obligations.ErrorCounters : Prop :=
  (∀ (c : CellId) (n : Nat) (bits : List Bool) (noDom : Bool) (r : State), r.power.phase = .ready →
    let s := r.rewakes
    s.online c n = true → s.counts c n = true → (s.cell c).resynced = false →
    let C := s.cell c
    let tx := C.attempt.isSome
    let sc := Scan.run' (s.hearing c n) {} bits (s.sending c)
    let after := (flagScan (s.compat n) (C.flag.any id) bits).event
    let flags (b : Bool) (t : State) : Prop := (t.cell c).flag = List.replicate 6 b
    (∀ ty field pos dph arbStuff, C.flag = [] → sc.verdict = some (.error ty field pos dph arbStuff) →
      let dT := if !tx then 0 else if ty = 6 && s.conf c == 2 && noDom then 0
        else if ty = 2 && arbStuff && s.compat n then 0 else 8
      s.tec c + dT < 256 →
      ∃ t, exec (.errorDetected c ⟨bits, noDom⟩) r = .next t ∧
        s.countersAre c dT (if tx then 0 else 1) t ∧ (t.cell c).attempt = none ∧ flags (s.conf c == 2) t ∧
        t.rd (F.CL_ERRCAP.TYPE c) = ty % 16 ∧ t.rd (F.CL_ERRCAP.FIELD c) = field % 16 ∧
        t.rd (F.CL_ERRCAP.POS c) = pos % 1024 ∧ t.rd (F.CL_ERRCAP.ROLE c) = b2n tx ∧
        (t.port n).pend = (s.port n).pend) ∧
    (C.flag ≠ [] → after = some .domAfterFlag → C.flagTx = false → C.flagOvl = false → s.tec c < 256 →
      ∃ t, exec (.errorDetected c ⟨bits, noDom⟩) r = .next t ∧ s.countersAre c 0 8 t) ∧
    (C.flag ≠ [] → (after = some .bitInFlag ∨ after = some .excessDominant) → s.tec c + 8 < 256 →
      ∃ t, exec (.errorDetected c ⟨bits, noDom⟩) r = .next t ∧
        t.rd (F.CL_ERRCAP.TYPE c) = (if after = some .bitInFlag then 1 else 7) ∧
        s.countersAre c (if C.flagTx then 8 else 0) (if C.flagTx then 0 else 8) t) ∧
    (C.flag ≠ [] → after = some .delimiter → s.tec c + 8 < 256 →
      ∃ t, exec (.errorDetected c ⟨bits, noDom⟩) r = .next t ∧ flags (s.conf c == 2) t ∧ t.rd (F.CL_ERRCAP.TYPE c) = 3 ∧
        t.rd (F.CL_ERRCAP.FIELD c) = 0xB ∧ s.countersAre c (if C.flagTx then 8 else 0) (if C.flagTx then 0 else 1) t) ∧
    (C.flag ≠ [] → after = some .ifs → s.tec c < 256 →
      ∃ t, exec (.errorDetected c ⟨bits, noDom⟩) r = .next t ∧ flags (s.conf c == 2) t ∧ t.rd (F.CL_ERRCAP.TYPE c) = 3 ∧
        t.rd (F.CL_ERRCAP.FIELD c) = 9 ∧ s.countersAre c 0 1 t) ∧
    (s.compat n = true → C.attempt = none →
      (C.flag = [] ∧ sc.verdict = some .overload ∨ C.flag ≠ [] ∧ after = some .overload) →
      ∃ t, exec (.errorDetected c ⟨bits, noDom⟩) r = .next t ∧ t.tec c = s.tec c ∧ t.rec' c = s.rec' c ∧ flags false t ∧
        t.rd (F.CL_COMPCNT.OVLD c) = min (s.rd (F.CL_COMPCNT.OVLD c) + 1) 511) ∧
    (C.flag = [] → sc.verdict = none → sc.lastEof = true → C.attempt = none → C.rxSof = none →
      ∃ t, exec (.errorDetected c ⟨bits, noDom⟩) r = .next t ∧ t.tec c = s.tec c ∧ t.rec' c = s.rec' c ∧
        flags (!s.compat n && s.conf c == 2) t ∧
        (s.compat n = true → t.rd (F.CL_COMPCNT.OVLD c) = min (s.rd (F.CL_COMPCNT.OVLD c) + 1) 511))) ∧
  (∀ (c : CellId) (n : Nat) (bits : List Bool) (noDom : Bool) (r : State), r.power.phase = .ready →
    let s := r.rewakes
    s.online c n = true → s.listens n = true → s.compat n = false → s.arState c ≠ 1 → s.arState c ≠ 2 →
    (s.cell c).stopped = false → (s.cell c).resynced = true → (bits = [false] ∨ bits = [true, false]) →
    ∃ t, exec (.errorDetected c ⟨bits, noDom⟩) r = .next t ∧ t.rd (F.CL_ERRCAP.TYPE c) = 3 ∧
      t.rd (F.CL_ERRCAP.FIELD c) = 9 ∧ t.rd (F.CL_ERRCAP.ROLE c) = 0 ∧ (t.cell c).stopped = true ∧
      t.tec c = s.tec c ∧ t.rec' c = s.rec' c ∧ t.blockRam = s.blockRam)

/-- A transmitter whose TEC would reach 256 enters BUS_OFF, by an error in its frame or in and after its flag: TEC
reads 256, its attempt ends, event 0x04 of class 0x04 is posted, and recovery waits for the host, for its delay, or
begins to count in the clk after, with event 0x05, as RECMODE says (Tables 6-3 and 6-4, R158). `r` is the state before
the wakes that a sleep entry has held are decided, and `s` the state after (R334, log entry 119). -/
def Obligations.BusOffEntry : Prop :=
  ∀ (c : CellId) (n : Nat) (bits : List Bool) (noDom : Bool) (r : State), r.power.phase = .ready →
    let s := r.rewakes
    s.online c n = true → s.counts c n = true → (s.cell c).resynced = false →
    256 ≤ s.tec c + 8 →
    let C := s.cell c
    let after := (flagScan (s.compat n) (C.flag.any id) bits).event
    (C.flag = [] ∧ C.attempt.isSome = true ∧
        (∃ ty field pos dph arbStuff,
          (Scan.run' (s.hearing c n) {} bits (s.sending c)).verdict = some (.error ty field pos dph arbStuff) ∧
          ¬ (ty = 6 ∧ s.conf c = 2 ∧ noDom = true) ∧ ¬ (ty = 2 ∧ arbStuff = true ∧ s.compat n = true)) ∨
      C.flag ≠ [] ∧ C.flagTx = true ∧ (after = some .bitInFlag ∨ after = some .excessDominant ∨ after = some .delimiter)) →
    ∃ t, exec (.errorDetected c ⟨bits, noDom⟩) r = .next t ∧ t.conf c = 3 ∧ t.tec c = 256 ∧
      (t.cell c).attempt = none ∧ (t.cell c).flag = [] ∧ s.postsEvent 0x04 0x04 c t ∧
      (s.rd (F.CL_ERRCTRL.RECMODE (State.home n)) = 1 → t.rd (F.CL_STATUS.RECOV c) = 1) ∧
      (s.rd (F.CL_ERRCTRL.RECMODE (State.home n)) = 2 → t.rd (F.CL_STATUS.RECOV c) = 2) ∧
      (s.rd (F.CL_ERRCTRL.RECMODE (State.home n)) ≠ 1 → s.rd (F.CL_ERRCTRL.RECMODE (State.home n)) ≠ 2 →
        (t.cell c).countAt = some (s.clk + 1) ∧ s.postsEvent 0x04 0x05 c t)

/-- FRAME_VALID_RECEIVER, for a frame whose bits the cell has sampled without error through the sixth bit of EOF
(`last` is the seventh). A compatibility frame, and every native frame but a network frame: it takes the destination
of the first matching filter with the record of Table 7-3, or is counted as discarded or unmatched (R189), and a cell
whose counters count makes the REC step of row 10 of Table 6-1. A network frame with PRI 0: one that is a beacon
becomes the last beacon with its origin as the master, and its window opens (R93, R96 to R98); on the port that TK_SRC
names it is a tick reference, and nowhere else it moves the tick unit (R58, R63); any other is counted in BCNBAD
(R93). A network frame with another PRI: a SLEEP_PROPOSE opens a round with a vote, or with HOLD aborts it; an AGREE
vote is counted by the coordinator, and a KEEP vote aborts the round; a SLEEP_COMMIT of the open round commits it, and
with no round is a stray; a WAKE frame clears the bit of the group it names, and aborts the open round of that group;
an ill-formed one is a stray (R329, R331 to R334, R337, R338). `r` is the state before the wakes that a sleep entry
has held are decided, and `s` the state after (R334, log entry 119). -/
def Obligations.ReceiverValid : Prop :=
  (∀ (c : CellId) (n sof : Nat) (bits : List Bool) (last : Bool) (r : State), r.power.phase = .ready →
    let s := r.rewakes
    s.online c n = true → (s.cell c).rxSof = some sof →
    (s.cell c).attempt = none → (s.cell c).stopped = false → s.arState c ≠ 1 → s.arState c ≠ 2 →
    let sc := Scan.run' (s.hearing c n) {} (bits ++ [last]) []
    let f := sc.frame (s.hearing c n)
    sc.valid = true → (s.compat n = true ∨ hKind f.h1 ≠ 3) →
    let rec' := recordOf (s.compat n) false f.h1 f.h2 f.h3 (sof % 2 ^ 36) f.payload
    ∃ t, exec (.frameValidReceiver c bits last) r = .next t ∧ (t.cell c).rxSof = none ∧
      (s.matchFilter n (matchKey (s.compat n) f.h1 f.h2) = none → (t.cell c).due = (s.cell c).due ∧
        t.rd (F.CL_FILTCNT.NOMATCH c) = min (s.rd (F.CL_FILTCNT.NOMATCH c) + 1) 511) ∧
      (∀ k, s.matchFilter n (matchKey (s.compat n) f.h1 f.h2) = some k →
        (s.filtDtype n k = 3 → (t.cell c).due = (s.cell c).due ∧
          t.rd (F.CL_FILTCNT.DISCARD c) = min (s.rd (F.CL_FILTCNT.DISCARD c) + 1) 511) ∧
        (s.filtDtype n k = 0 → (t.cell c).due = (s.cell c).due ++ [⟨.buffer (s.filtBuf n k), rec'⟩]) ∧
        (s.filtDtype n k = 1 ∨ s.filtDtype n k = 2 →
          (t.cell c).due = (s.cell c).due ++ [⟨.queue (qid n (s.filtDtype n k - 1)), rec'⟩])) ∧
      (s.listens n = false → s.frozen c n = false →
        t.rec' c = (if 127 < s.rec' c then 120 else s.rec' c - 1) ∧ t.tec c = s.tec c)) ∧
  (∀ (c : CellId) (n sof : Nat) (bits : List Bool) (last : Bool) (r : State), r.power.phase = .ready →
    let s := r.rewakes
    s.online c n = true → s.compat n = false → (s.cell c).rxSof = some sof → (s.cell c).attempt = none →
    (s.cell c).stopped = false → s.arState c ≠ 1 → s.arState c ≠ 2 →
    let sc := Scan.run' (s.hearing c n) {} (bits ++ [last]) []
    let f := sc.frame (s.hearing c n)
    let org := hOrg f.h2
    let w0 := f.payload.headD 0
    let num := bitsOf w0 11 6
    let g := bitsOf w0 5 0
    let run (t : State) : Prop := exec (.frameValidReceiver c bits last) r = .next t
    sc.valid = true → hKind f.h1 = 3 →
    (∀ b, hPri f.h1 = 0 → State.beaconOf org sof (hLen f.h3) f.payload = some b →
      let e := (b.sof : Int) - s.rd F.TK_HOPDLY.HOPDLY - s.tick.boundary
      let lim : Int := s.rd F.TK_HOPDLY.LOCKLIM
      ∃ t, run t ∧ (t.cell c).lastBeacon = some b ∧ (t.cell c).suspended = false ∧ (t.cell c).beaconMisses = 0 ∧
        (t.cell c).windowEnd = sof + b.win * b.period / 128 ∧ t.rd (F.CL_BCNSTAT.MASTER c) = org ∧
        t.flag (F.CL_BCNSTAT.SELF c) = false ∧ t.rd (F.CL_BCNSTAT.BAND c) = b.band ∧ t.rd (F.CL_BCNSTAT.WIN c) = b.win ∧
        t.flag (F.CL_BCNSTAT.WINOPEN c) = decide (s.tick.time < sof + b.win * b.period / 128) ∧
        ((s.sourceNow ≠ 3 ∨ s.rd F.TK_SRC.PORT ≠ n) → t.tick = s.tick) ∧
        (s.sourceNow = 3 → s.rd F.TK_SRC.PORT = n → s.rd F.TK_STATUS.STATE = 3 → s.periodOk b.period = true →
          -lim ≤ e → e ≤ lim → b.tickNo = s.tickNo →
          t.rd F.TK_STATUS.STATE = 3 ∧ t.rd F.TK_PHERR.PHERR = modBits 18 (max (-131071) (min 131071 e)) ∧
            t.tick.adopted = some b.period ∧ t.tick.slew = -e)) ∧
    (hPri f.h1 = 0 → State.beaconOf org sof (hLen f.h3) f.payload = none →
      ∃ t, run t ∧ (t.cell c).lastBeacon = (s.cell c).lastBeacon ∧ t.tick = s.tick ∧
        t.rd (F.CL_NATCNT.BCNBAD c) = min (s.rd (F.CL_NATCNT.BCNBAD c) + 1) 511) ∧
    (hPri f.h1 ≠ 0 → 1 ≤ bitsOf w0 17 12 → bitsOf w0 17 12 ≤ 4 → State.netOk f.payload = false →
      ∃ t, run t ∧ t.rd (F.PW_PCNT.STRAY n) = min (s.rd (F.PW_PCNT.STRAY n) + 1) 511 ∧ (t.port n).round = (s.port n).round) ∧
    (hPri f.h1 ≠ 0 → State.netOk f.payload = true →
      (bitsOf w0 17 12 = 1 → (s.port n).round = none → s.portState n = 0 → g = 0x3F → s.isStandby = false →
        (s.flag (F.PW_PCFG.HOLD n) = false → (s.port n).net = none →
          ∃ t, run t ∧ (t.port n).round = some { coord := org } ∧ t.rd (F.PW_PSTAT.RSTATE n) = 1 ∧
            t.rd (F.PW_PSTAT.ROUND n) = num ∧ t.rd (F.PW_PSTAT.RGROUP n) = 0x3F ∧ t.flag (F.PW_PSTAT.COORD n) = false ∧
            (t.port n).net = some ⟨s.rd F.PW_NPRI.NPRI, [pack [(2, 12), (num, 6)]].map wordOf⟩ ∧
            s.postsEvent 0x0B 0x01 n t) ∧
        (s.flag (F.PW_PCFG.HOLD n) = true →
          ∃ t, run t ∧ (t.port n).round = none ∧ t.rd (F.PW_PSTAT.RSTATE n) = 0 ∧ s.postsEvent 0x0B 0x02 n t ∧
            t.rd (F.PW_PCNT.ABORTS n) = min (s.rd (F.PW_PCNT.ABORTS n) + 1) 511)) ∧
      (bitsOf w0 17 12 = 1 → (s.port n).round.isSome = true →
        ∃ t, run t ∧ (t.port n).round = (s.port n).round ∧
          t.rd (F.PW_PCNT.STRAY n) = min (s.rd (F.PW_PCNT.STRAY n) + 1) 511) ∧
      (∀ q, bitsOf w0 17 12 = 2 → (s.port n).round = some q → q.sdly = none → num = s.rd (F.PW_PSTAT.ROUND n) →
        (s.rd (F.PW_PSTAT.RGROUP n) = 0x3F ∨ s.member n (s.rd (F.PW_PSTAT.RGROUP n)) org = true) →
        (bitOf w0 5 = true →
          ∃ t, run t ∧ (t.port n).round = none ∧ t.rd (F.PW_PSTAT.RSTATE n) = 0 ∧ s.postsEvent 0x0B 0x02 n t ∧
            t.rd (F.PW_PCNT.ABORTS n) = min (s.rd (F.PW_PCNT.ABORTS n) + 1) 511 ∧
            t.rd F.PW_KALOG.NEXT = (s.rd F.PW_KALOG.NEXT + 1) % F.PW_KALOG.NEXT.size) ∧
        (bitOf w0 5 = false → s.flag (F.PW_PSTAT.COORD n) = true → q.window.isSome = true → org ∉ q.agree →
          ∃ t, run t ∧ (t.port n).round = some { q with agree := org :: q.agree } ∧
            t.rd (F.PW_PSTAT.AGREE n) = min (s.rd (F.PW_PSTAT.AGREE n) + 1) 31)) ∧
      (∀ q, bitsOf w0 17 12 = 3 → (s.port n).aborted = none → (s.port n).round = some q → q.sdly = none → q.coord = org →
        num = s.rd (F.PW_PSTAT.ROUND n) → g = s.rd (F.PW_PSTAT.RGROUP n) →
        ∃ t, run t ∧ t.rd (F.PW_PSTAT.RSTATE n) = 2 ∧ s.postsEvent 0x0B 0x03 n t ∧
          (t.port n).round = some { q with sdly := some (bitsOf ((f.payload.drop 1).headD 0) 17 10), window := none } ∧
          t.rd (F.PW_PCNT.ROUNDS n) = min (s.rd (F.PW_PCNT.ROUNDS n) + 1) 511) ∧
      (bitsOf w0 17 12 = 3 → (s.port n).aborted = none → (s.port n).round = none →
        ∃ t, run t ∧ (t.port n).round = none ∧ t.rd (F.PW_PCNT.STRAY n) = min (s.rd (F.PW_PCNT.STRAY n) + 1) 511) ∧
      (bitsOf w0 17 12 = 4 → g < 32 → (s.port n).groupSlept = none → bitOf (s.rd (F.PW_GSLEEP.GSLEEP n)) g = true →
        ∃ t, run t ∧ bitOf (t.rd (F.PW_GSLEEP.GSLEEP n)) g = false ∧ s.postsEvent 0x0B 0x05 n t) ∧
      (∀ q, bitsOf w0 17 12 = 4 → s.portState n = 0 → (s.port n).round = some q → q.sdly = none →
        (g = 0x3F ∨ g = s.rd (F.PW_PSTAT.RGROUP n)) →
        ∃ t, run t ∧ (t.port n).round = none ∧ t.rd (F.PW_PSTAT.RSTATE n) = 0 ∧ s.postsEvent 0x0B 0x02 n t)))

/-- FRAME_VALID_TRANSMITTER of a buffer's frame, of whose bits none has shown an error: the attempt ends, the buffer
is no longer pending, its COUNT has grown by 1, words 4 and 5 of its record hold the SOF timestamp, and a counting
cell lowers TEC by 1 (R89, R187, Table 6-1). No other word of block RAM changes but LEN of a compatibility record and
status pairs of the port. A frame of the transmit queue leaves the queue (R228). The device's own SLEEP_PROPOSE opens
the vote window of its round, its own SLEEP_COMMIT commits it, and its own WAKE frame clears the bits of its groups
(R331, R333, R337). `r` is the state before the wakes that a sleep entry has held are decided, and `s` the state after
(R334, log entry 119). -/
def Obligations.TransmitterValid : Prop :=
  ∀ (c : CellId) (n : Nat) (a : Attempt) (bits : List Bool) (r : State), r.power.phase = .ready →
    let s := r.rewakes
    s.online c n = true →
    (s.cell c).attempt = some a → (Scan.run' (s.hearing c n) {} bits a.bits).validSent = true →
    (∀ d, a.frame.src = .buffer d → d < 128 → a.orphan = false → 0x900 ≤ (s.desc n d).dataptr →
      let w := s.txRecord n d
      ∃ t, exec (.frameValidTransmitter ⟨c, bits⟩) r = .next t ∧ (t.cell c).attempt = none ∧ d ∉ (t.port n).pend ∧
        bitsOf (t.s0 n d) 5 0 = (bitsOf (s.s0 n d) 5 0 + 1) % 64 ∧
        (t.ram (n / 8) (w + 4)).toNat = a.sof % 2 ^ 18 ∧ (t.ram (n / 8) (w + 5)).toNat = a.sof / 2 ^ 18 % 2 ^ 18 ∧
        (s.frozen c n = false → s.tec c < 512 → t.tec c = s.tec c - 1) ∧
        s.keepsRam (fun b i => State.pairWord n b i ∨ b = n / 8 ∧
          (i = (w + 4) % 32768 ∨ i = (w + 5) % 32768 ∨ (s.compat n = true ∧ i = (w + 3) % 32768))) t) ∧
    (a.frame.src = .tq → a.orphan = false →
      ∃ t, exec (.frameValidTransmitter ⟨c, bits⟩) r = .next t ∧ (t.cell c).attempt = none ∧
        (t.queue (qid n 2)).vis = (s.queue (qid n 2)).vis.drop (s.tqHead n).length) ∧
    (∀ q, a.frame.src = .network → a.orphan = false → s.compat n = false → s.testMode n = 0 → hPri (a.frame.w 1) ≠ 0 →
      (s.port n).round = some q →
      let w0 := ((a.frame.words.drop 6).headD 0).toNat
      let w1 := (((a.frame.words.drop 6).drop 1).headD 0).toNat
      (bitsOf w0 17 12 = 1 → s.flag (F.PW_PSTAT.COORD n) = true → bitsOf w0 11 6 = s.rd (F.PW_PSTAT.ROUND n) →
        ∃ t, exec (.frameValidTransmitter ⟨c, bits⟩) r = .next t ∧ (t.cell c).attempt = none ∧
          (t.port n).round = some { q with window := some (bitsOf w1 17 10) } ∧ s.postsEvent 0x0B 0x01 n t ∧
          (t.port n).net = (s.port n).netWait.head?) ∧
      (bitsOf w0 17 12 = 3 → (s.port n).aborted = none → q.sdly = none → q.coord = s.origin n →
        bitsOf w0 11 6 = s.rd (F.PW_PSTAT.ROUND n) → bitsOf w0 5 0 = s.rd (F.PW_PSTAT.RGROUP n) →
        ∃ t, exec (.frameValidTransmitter ⟨c, bits⟩) r = .next t ∧ t.rd (F.PW_PSTAT.RSTATE n) = 2 ∧
          (t.port n).round = some { q with sdly := some (bitsOf w1 17 10), window := none } ∧ s.postsEvent 0x0B 0x03 n t)) ∧
    (a.frame.src = .network → a.orphan = false → s.compat n = false → s.testMode n = 0 → hPri (a.frame.w 1) ≠ 0 →
      let w0 := ((a.frame.words.drop 6).headD 0).toNat
      let g := bitsOf w0 5 0
      bitsOf w0 17 12 = 4 → g < 32 → (s.port n).groupSlept = none → bitOf (s.rd (F.PW_GSLEEP.GSLEEP n)) g = true →
      ∃ t, exec (.frameValidTransmitter ⟨c, bits⟩) r = .next t ∧ bitOf (t.rd (F.PW_GSLEEP.GSLEEP n)) g = false ∧
        s.postsEvent 0x0B 0x05 n t)

/-- INTEGRATION_COMPLETE, RECOVERY_SEQUENCE, RECOVERY_DELAY_ELAPSED, PROTOCOL_EXCEPTION and LISTEN_MODE_RESYNC move a
cell through Table 6-3: an integrated cell is active or passive by its counters; the last of 64 (native) or 128
(compatibility) recovery sequences clears the counters and makes the cell ERROR_ACTIVE with event 0x06, an earlier one
only counts (R110, R159); the end of the delay starts the counting, in the clk after it (R158, Table 6-4); after a
protocol exception, which its bits show, a compatibility cell stops decoding (R108); a listening cell that stopped
after an error decodes again, from IFS on (R163). `r` is the state before the wakes that a sleep entry has held are
decided, and `s` the state after (R334, log entry 119). -/
def Obligations.ConfinementMoves : Prop :=
  (∀ (c : CellId) (n : Nat) (r : State), r.power.phase = .ready →
    let s := r.rewakes
    s.bussed c n = true →
    let need := if s.compat n then 128 else 64
    (s.conf c = 0 →
      ∃ t, exec (.integrationComplete c) r = .next t ∧
        t.conf c = (if 128 ≤ s.tec c ∨ 128 ≤ s.rec' c then 2 else 1) ∧ (t.cell c).rxSof = none ∧
        (t.cell c).stopped = false ∧ (t.port n).busySince = none) ∧
    let u := s.counted c
    (s.conf c = 3 → u.rd (F.CL_STATUS.RECOV c) = 3 → u.rd (F.CL_STATUS.SEQCNT c) + 1 < need →
      ∃ t, exec (.recoverySequence c) r = .next t ∧ t.conf c = 3 ∧ t.tec c = s.tec c ∧
        t.rd (F.CL_STATUS.SEQCNT c) = u.rd (F.CL_STATUS.SEQCNT c) + 1) ∧
    (s.conf c = 3 → u.rd (F.CL_STATUS.RECOV c) = 3 → u.rd (F.CL_STATUS.SEQCNT c) + 1 = need →
      ∃ t, exec (.recoverySequence c) r = .next t ∧ t.conf c = 1 ∧ t.tec c = 0 ∧ t.rec' c = 0 ∧
        t.rd (F.CL_STATUS.RECOV c) = 0 ∧ t.flag (F.CL_STATUS.EWARN c) = false ∧ s.postsEvent 0x04 0x06 c t) ∧
    (∀ bits pos, (s.conf c = 1 ∨ s.conf c = 2) → (s.cell c).rxSof.isSome → (s.cell c).attempt = none →
      (s.cell c).stopped = false → s.arState c ≠ 1 →
      (Scan.run' (s.hearing c n) {} bits []).verdict = some (.exception pos) →
      ∃ t, exec (.protocolException c bits) r = .next t ∧ (t.cell c).stopped = true ∧ t.rd (F.CL_ERRCAP.TYPE c) = 8 ∧
        t.rd (F.CL_COMPCNT.PEXC c) = min (s.rd (F.CL_COMPCNT.PEXC c) + 1) 511 ∧ t.tec c = s.tec c ∧
        t.rec' c = s.rec' c)) ∧
  (∀ (c : CellId) (s : State), s.power.phase = .ready →
    (s.conf c = 3 → s.rd (F.CL_STATUS.RECOV c) = 2 → (s.cell c).countAt = none →
      s.rd (F.CL_ERRCTRL.DELAY (s.cfg c)) ≤ (s.cell c).recDelay →
      ∃ t, exec (.recoveryDelayElapsed c) s = .next t ∧ (t.cell c).countAt = some (s.clk + 1) ∧
        (t.counted c).rd (F.CL_STATUS.RECOV c) = 2 ∧
        (∀ u : State, u = { t with tick := { t.tick with clk := t.tick.clk + 1 } } →
          (u.counted c).rd (F.CL_STATUS.RECOV c) = 3 ∧ (u.counted c).rd (F.CL_STATUS.SEQCNT c) = 0) ∧
        s.postsEvent 0x04 0x05 c t ∧ t.regs = s.regs) ∧
    ((s.cell c).stopped = true → s.rd (F.CL_ERRCAP.TYPE c) ≠ 8 →
      ∃ t, exec (.listenModeResync c) s = .next t ∧ (t.cell c).stopped = false ∧ (t.cell c).resynced = true ∧
        t = { s with cells := t.cells }))

/-- BEACON_READY readies the beacon of a candidate that has readied none in this tick and received none of another
origin; BEACON_MISSING counts the miss and suspends window and guard, and the first miss ends the master and is
reported; WINDOW_CLOSE ends the open window at S + W (R94, R97, R98). Rows that wait for a due time move device time to
it and never back (log entry 3). `r` is the state before the wakes that a sleep entry has held are decided, and `s` the
state after (R334, log entry 119). -/
def Obligations.Beacons : Prop :=
  (∀ (c : CellId) (n : Nat) (r : State), r.power.phase = .ready →
    let s := r.rewakes
    s.bussed c n = true → s.compat n = false →
    (s.flag (F.CL_BEACON.CAND (State.home n)) = true → s.listens n = false → s.testMode n = 0 → s.origin n ≠ 0x3FF →
      (s.cell c).beaconDone = false → s.tick.boundary + s.rd (F.CL_BEACON.BCN_OFS (State.home n)) < s.nextBoundary →
      ∃ t, exec (.beaconReady c) r = .next t ∧ (t.cell c).beaconReady = true ∧
        t.tick.time = max s.tick.time (s.tick.boundary + s.rd (F.CL_BEACON.BCN_OFS (State.home n))) ∧ t.regs = s.regs) ∧
    (∀ b, (s.cell c).lastBeacon = some b →
      ∃ t, exec (.beaconMissing c) r = .next t ∧ (t.cell c).suspended = true ∧
        (t.cell c).beaconMisses = (s.cell c).beaconMisses + 1 ∧
        t.rd (F.CL_NATCNT.BCNMISS c) = min (s.rd (F.CL_NATCNT.BCNMISS c) + 1) 511 ∧
        ((s.cell c).beaconMisses = 0 → t.rd (F.CL_BCNSTAT.MASTER c) = 0x3FF ∧
          t.flag (F.CL_BCNSTAT.WINOPEN c) = false ∧ s.postsEvent 0x03 0x03 c t))) ∧
  (∀ (c : CellId) (s : State), s.power.phase = .ready →
    (s.flag (F.CL_BCNSTAT.WINOPEN c) = true →
      ∃ t, exec (.windowClose c) s = .next t ∧ t.flag (F.CL_BCNSTAT.WINOPEN c) = false ∧
        t.tick.time = max s.tick.time (s.cell c).windowEnd ∧
        ∀ f : Field, f.key ≠ (F.CL_BCNSTAT.WINOPEN c).key → t.rd f = s.rd f) ∧
    (s.flag (F.CL_BCNSTAT.WINOPEN c) = false → exec (.windowClose c) s = .next s))

/-! ### Stores, pushes and fetches (chapter 7) -/

/-- RECEIVE_STORE. `r` is the state in which the row comes and `s` the one in which port A has served the cells that
its rotation considers before (R23). The claim of a free receive buffer sets S0.BUSY; under HOLD it is the shadow copy
that is claimed, where the descriptor has one, and the frame is lost and counted in S0 where it has none; a payload
past the capacity is lost too. The close writes the record into the block RAM at the claimed copy, clears BUSY and,
for the buffer itself, adds 1 to COUNT. No other word of block RAM changes but the buffer's S0 (R191, Tables 7-5 and
7-7). A row for the whole store is its claim and then its close. -/
def Obligations.ReceiveStore : Prop :=
  ∀ (c : CellId) (n : Nat) (r : State), r.power.phase = .ready → r.servedPort c = some n →
    let s := r.portATurn c
    let claim (t : State) : Prop := exec (.receiveStore c .claim) r = .next t
    let lost (d : Nat) (t : State) : Prop := bitsOf (t.s0 n d) 11 6 = min (bitsOf (s.s0 n d) 11 6 + 1) 63 ∧
      t.rd (F.CL_FILTCNT.LOST (s.servingCell n)) = min (s.rd (F.CL_FILTCNT.LOST (s.servingCell n)) + 1) 511
    (∀ d rec' rest, (s.cell c).store = none → (s.cell c).due = ⟨.buffer d, rec'⟩ :: rest →
      s.storeHeld n ⟨.buffer d, rec'⟩ = false → (s.desc n d).isRx = true → s.suspended n d = false →
      (State.plenOf (rec'.headD 0).toNat ≤ (s.desc n d).capacity →
        (s.held n d = false →
          ∃ t, claim t ∧ (t.cell c).due = rest ∧ t.busy n d = true ∧
            (t.cell c).store = some ⟨d, false, s.recordAt n d (s.alt n d), rec', false⟩ ∧
            s.keepsRam (fun b i => b = n / 8 ∧ i = State.s0Word n d % 32768) t ∧ t.regs = s.regs) ∧
        (s.held n d = true → (s.desc n d).shadow = false →
          ∃ t, claim t ∧ (t.cell c).due = rest ∧ (t.cell c).store = none ∧ lost d t) ∧
        (s.held n d = true → (s.desc n d).shadow = true →
          ∃ t, claim t ∧ (t.cell c).due = rest ∧ t.xbusy n d = true ∧ t.shnew n d = false ∧ t.busy n d = s.busy n d ∧
            (t.cell c).store = some ⟨d, true, s.recordAt n d (!s.alt n d), rec', false⟩ ∧
            (s.shnew n d = true → lost d t) ∧ (s.shnew n d = false → t.regs = s.regs))) ∧
      ((s.desc n d).capacity < State.plenOf (rec'.headD 0).toNat →
        ∃ t, claim t ∧ (t.cell c).due = rest ∧ (t.cell c).store = none ∧ lost d t ∧
          (0x6040000 + n * 128 + d ∉ s.once → s.postsEvent 0x06 0x04 c t))) ∧
    (∀ o, (r.cell c).store = some o → o.stale = false → o.shadow = false → o.buf < 128 → 0x2400 ≤ o.base →
      o.base + o.record.length ≤ 32768 →
      ∃ t, exec (.receiveStore c .close) r = .next t ∧ (t.cell c).store = none ∧ t.busy n o.buf = false ∧
        (∀ i, i < o.record.length → t.ram (n / 8) (o.base + i) = o.record.getD i 0) ∧
        bitsOf (t.s0 n o.buf) 5 0 = (bitsOf (s.s0 n o.buf) 5 0 + 1) % 64 ∧
        s.keepsRam (fun b i => b = n / 8 ∧
          (i = State.s0Word n o.buf ∨ o.base ≤ i ∧ i < o.base + o.record.length)) t) ∧
    (∀ o, (r.cell c).store = some o → o.stale = false → o.shadow = true → o.buf < 128 → 0x2400 ≤ o.base →
      o.base + o.record.length ≤ 32768 →
      ∃ t, exec (.receiveStore c .close) r = .next t ∧ (t.cell c).store = none ∧ t.xbusy n o.buf = false ∧
        (∀ i, i < o.record.length → t.ram (n / 8) (o.base + i) = o.record.getD i 0) ∧
        (s.held n o.buf = true → t.shnew n o.buf = true ∧ t.alt n o.buf = s.alt n o.buf) ∧
        (s.held n o.buf = false → t.shnew n o.buf = false ∧ t.alt n o.buf = !s.alt n o.buf)) ∧
    (∀ t, exec (.receiveStore c .claim) r = .next t → t.power.phase = .ready → t.servedPort c = some n →
      exec (.receiveStore c .whole) r = exec (.receiveStore c .close) t)

/-- RECEIVE_QUEUE_PUSH claims: all words of the due record but the last are pushed into its queue, which has credit
for the whole of it, or the frame is dropped and counted (R190, R220). Its close pushes the last word, with which the
packet becomes visible (R222), or ends the discarding of a packet that was rewound meanwhile (R231). TRANSMIT_FETCH
claims the first buffer in order, and at its close the record read from block RAM is the cell's ready frame (R203).
`r` is the state in which the row comes, `u` the one in which port A has served the cells that its rotation considers
before (R23), for a fetch after the wakes that a sleep entry has held are decided (R334, log entry 119). A row for the
whole is its claim and then its close. -/
def Obligations.PushAndFetch : Prop :=
  (∀ (c : CellId) (r : State), r.power.phase = .ready →
    let u := r.portATurn c
    (∀ q rec' rest, isBulk q = false → (u.cell c).pushing = none → (u.cell c).due = ⟨.queue q, rec'⟩ :: rest → rec' ≠ [] →
      (rec'.length ≤ u.credit q →
        ∃ t, exec (.receiveQueuePush ⟨c, .claim⟩) r = .next t ∧ (t.cell c).due = rest ∧
          (t.cell c).pushing = some (q, rec'.getLastD 0) ∧ (t.queue q).vis = (u.queue q).vis ∧
          (t.queue q).opened = rec'.dropLast.map (⟨·, false, none⟩) ∧ (t.queue q).discarding = false) ∧
      (u.credit q < rec'.length →
        ∃ t, exec (.receiveQueuePush ⟨c, .claim⟩) r = .next t ∧ (t.cell c).due = rest ∧ t.queues = u.queues ∧
          t.rd (F.CL_FILTCNT.QDROP c) = min (u.rd (F.CL_FILTCNT.QDROP c) + 1) 511)) ∧
    (∀ q w, isBulk q = false → (r.cell c).pushing = some (q, w) →
      ∃ t, exec (.receiveQueuePush ⟨c, .close⟩) r = .next t ∧ (t.cell c).pushing = none ∧
        (t.queue q).discarding = false ∧
        ((u.queue q).discarding = true → (t.queue q).vis = (u.queue q).vis ∧ (t.queue q).opened = (u.queue q).opened) ∧
        ((u.queue q).discarding = false →
          (t.queue q).vis = (u.queue q).vis ++ (u.queue q).opened ++ [⟨w, true, none⟩] ∧ (t.queue q).opened = [])) ∧
    (∀ t, exec (.receiveQueuePush ⟨c, .claim⟩) r = .next t → t.power.phase = .ready →
      exec (.receiveQueuePush ⟨c, .whole⟩) r = exec (.receiveQueuePush ⟨c, .close⟩) t)) ∧
  (∀ (c : CellId) (n : Nat) (r : State), r.power.phase = .ready →
    let s := r.rewakes
    let u := s.portATurn c
    s.bussed c n = true → s.listens n = false →
    (∀ d, (s.fetchDue c n).isSome = true → u.fetchDue c n = some (.buffer d) → u.held n d = false → u.xbusy n d = false →
      ∃ t, exec (.transmitFetch c .claim) r = .next t ∧ (t.cell c).fetch = some (.buffer d) ∧ t.busy n d = true ∧
        u.keepsRam (fun b i => b = n / 8 ∧ i = State.s0Word n d % 32768) t) ∧
    (∀ d, (s.cell c).fetch.isSome = true → (u.cell c).fetch = some (.buffer d) → d ∈ (u.port n).pend →
      u.suspended n d = false →
      let w := u.ramList (n / 8) (u.txRecord n d) (6 + min (u.desc n d).capacity 32)
      u.recordOk n (u.desc n d).capacity (w.map (·.toNat)) = true →
      ∃ t, exec (.transmitFetch c .close) r = .next t ∧ (t.cell c).ready = some ⟨.buffer d, w⟩ ∧
        (t.cell c).fetch = none ∧ t.busy n d = false ∧
        u.keepsRam (fun b i => b = n / 8 ∧ i = State.s0Word n d % 32768) t) ∧
    exec (.transmitFetch c .whole) r = .next ((s.beginFetch c n).endFetch c n))

/-! ### Automatic rate detection (R143 to R147) -/

/-- RATE_MEASURE_DONE records TMIN and starts the trial of the first eligible candidate, or ends the pass where none
is eligible; RATE_DWELL_EXPIRY goes on to the next candidate, after the last one to the next pass, and after the last
pass the search has failed with event 0x02. That a frame in progress can count for the next candidate is the model's
choice (log entry 105). PORT_AUTORATE starts a search on a port whose cell behaves as in listen mode (log entry 93),
and with STOP = 1 aborts one with event 0x03 (R143, R145 to R147, Table 5-6). The row's packet is pushed, popped and
started in one step (log entry 6); `u` is the state in which its effect comes, after the wakes that a sleep entry has
held are decided (R334, log entry 119). -/
def Obligations.RateSearch : Prop :=
  ∀ (c : CellId) (s : State), s.power.phase = .ready →
    let passes := s.rd (F.CL_ARCTRL.PASSES (s.cfg c))
    let pass := s.rd (F.CL_ARSTAT.PASS c)
    let again (t : State) : Prop := t.arState c = 1 ∧ t.rd (F.CL_ARSTAT.PASS c) = min (pass + 1) 15 ∧
      t.rd (F.CL_ARSTAT.TMIN c) = 0xFFFF ∧ (t.cell c).arDwell = 0 ∧ (t.cell c).arLeft = []
    (∀ tmin, s.arState c = 1 → s.rd (F.CL_ARCTRL.GLITCH (s.cfg c)) ≤ tmin.toNat → tmin.toNat ≤ 20000 →
      (∀ k ks, s.rateEligible c tmin.toNat = k :: ks →
        ∃ t, exec (.rateMeasureDone c tmin) s = .next t ∧ t.rd (F.CL_ARSTAT.TMIN c) = tmin.toNat ∧ t.arState c = 2 ∧
          t.rd (F.CL_ARSTAT.CAND c) = k ∧ t.rd (F.CL_ARSTAT.GOOD c) = 0 ∧ (t.cell c).arLeft = ks) ∧
      (s.rateEligible c tmin.toNat = [] →
        (passes = 0 ∨ pass < passes → ∃ t, exec (.rateMeasureDone c tmin) s = .next t ∧ again t) ∧
        (passes ≠ 0 → passes ≤ pass →
          ∃ t, exec (.rateMeasureDone c tmin) s = .next t ∧ t.arState c = 4 ∧ t.rd (F.CL_ARSTAT.TMIN c) = tmin.toNat ∧
            s.postsEvent 0x05 0x02 c t))) ∧
    (∀ k ks, s.arState c = 2 → s.rd (F.CL_ARCTRL.DWELL (s.cfg c)) ≤ (s.cell c).arDwell → k < 16 →
      (s.cell c).arLeft = k :: ks →
      ∃ t, exec (.rateDwellExpiry c) s = .next t ∧ t.arState c = 2 ∧ t.rd (F.CL_ARSTAT.CAND c) = k ∧
        t.rd (F.CL_ARSTAT.GOOD c) = 0 ∧ (t.cell c).arLeft = ks ∧ (t.cell c).rxSof = (s.cell c).rxSof) ∧
    ((s.arState c = 1 ∨ s.arState c = 2 ∧ (s.cell c).arLeft = []) →
      s.rd (F.CL_ARCTRL.DWELL (s.cfg c)) ≤ (s.cell c).arDwell →
      (passes = 0 ∨ pass < passes → ∃ t, exec (.rateDwellExpiry c) s = .next t ∧ again t) ∧
      (passes ≠ 0 → passes ≤ pass →
        ∃ t, exec (.rateDwellExpiry c) s = .next t ∧ t.arState c = 4 ∧ s.postsEvent 0x05 0x02 c t)) ∧
    (∀ p, s.starts cmdPortAutorate p = true →
      let n := Operand.port (Operand.args p)
      let u := (s.begun cmdPortAutorate p).rewakes
      u.servingCell n = c →
      (bitOf (Operand.item (Operand.args p)) 0 = false → u.listens n = true → u.portState n < 2 → u.searching c = false →
        ∃ t, exec (.portAutorate p) s = .next t ∧ s.answered cmdPortAutorate p 0x00 [] t ∧ t.arState c = 1 ∧
          t.rd (F.CL_ARSTAT.PASS c) = 1) ∧
      (bitOf (Operand.item (Operand.args p)) 0 = true → u.searching c = true →
        ∃ t, exec (.portAutorateStop p) s = .next t ∧ s.answered cmdPortAutorate p 0x00 [] t ∧ t.arState c = 5 ∧
          u.postsEvent 0x05 0x03 c t))

/-! ### The tick (chapter 2) -/

/-- TICK_BOUNDARY opens the next tick: its number is one higher, B(n+1) is the device time of the first clk at or past
one period (or the end of a step) after B(n), device time has reached it, CAPTURE runs, and no phase has missed its
deadline yet (R42, R43). A commit whose boundary it is has gone live (R396, R397): no commit waits and the lock is
off, unless a COMMIT of the boundary clk has begun the next one (R44). Rows that wait for a due time move device time
to it and never back (log entry 3). Then the engine goes on with a command that waits and with packets behind it
(R393, log entry 22). -/
def Obligations.TickBoundaryOpensTick : Prop :=
  ∀ s : State, s.power.phase = .ready →
    ∃ t : State, exec .tickBoundary s = .next t.goOn ∧ t.tickNo = (s.tickNo + 1) % 2 ^ 36 ∧ t.phase = 0 ∧
      t.tick.boundary = s.tick.crossed.getD s.nextBoundary ∧ max s.tick.time s.nextBoundary ≤ t.tick.time ∧
      t.tick.stepTo = none ∧ t.tick.crossed = none ∧
      t.tick.missCap = false ∧ t.tick.missMap = false ∧ t.tick.missEmit = false ∧ t.tick.closeDone = false ∧
      (∀ p, s.engine.commit = some p → p.skip = 0 →
        t.engine.commit.isSome = s.engine.next.isSome ∧ t.engine.next = none ∧ t.locked = s.engine.next.isSome)

/-- CAPTURE_COMPLETE, MAP_COMPLETE and EMIT_COMPLETE end a phase with no work left before the boundary: the offset of
its end enters TK_DONE, and the next phase runs (R45, R49, R255). CAPTURE completes once the list of host writes is
closed, and an entry of it that is still due is written before (R242, R375); MAP completes 40 clk after the last knot
issued, or in its first clk where none did. The commands have no effect outside their phase. After CAPTURE_COMPLETE
and MAP_COMPLETE the engine goes on, where a command waits (R393, log entry 22). Rows that wait for a due time move
device time to it and never back (log entry 3). -/
def Obligations.PhasesComplete : Prop :=
  ∀ s : State, s.power.phase = .ready →
    let from' := (s.advanceClk s.tick.phaseFrom).tick
    (s.phase = 0 → s.captureLeft = [] → s.areasLeft = [] → s.pair.listClose = true → s.inPhase = true →
      s.tick.mapSkipped = false →
      ∃ t : State, exec .captureComplete s = .next t.goOn ∧ t.phase = 1 ∧ t.gateway.mapStart = from'.clk + 1 ∧
        t.emit = (s.advanceClk s.tick.phaseFrom).applyDue.emit ∧
        t.rd F.TK_DONE_CAPTURE.DONE = (from'.time - from'.boundary) % 2 ^ 22) ∧
    (s.phase = 1 → ((List.range 8).any fun l => (s.laneDue l).isSome) = false →
      let u := s.advanceClk (match s.gateway.lastIssue with | some u => u + 40 | none => s.gateway.mapStart)
      u.boundaryHere = false →
      ∃ t : State, exec .mapComplete s = .next t.goOn ∧ t.phase = 2 ∧ t.rd F.GW_DIGTICK.TICKNO = s.tickNo % 2 ^ 36 ∧
        t.rd F.TK_DONE_MAP.DONE = (u.tick.time - u.tick.boundary) % 2 ^ 22) ∧
    (s.phase = 2 → s.emitLeft = [] → s.emitOpen = [] → s.inPhase = true →
      ∃ t, exec .emitComplete s = .next t ∧ t.phase = 3 ∧
        t.rd F.TK_DONE_EMIT.DONE = (from'.time - from'.boundary) % 2 ^ 22) ∧
    (s.phase ≠ 0 → exec .captureComplete s = .next s.goOn) ∧ (s.phase ≠ 1 → exec .mapComplete s = .next s.goOn) ∧
    (s.phase ≠ 2 → exec .emitComplete s = .next s)

/-- PHASE_DEADLINE of a phase that has not completed counts one chip-level miss and marks it counted, a HOLD at MAP
names every port for the EMIT scope, and the deadline of HOUSE is the boundary itself (R46, R50 to R52). Then the engine
goes on, where a command waits (R393, log entry 22). -/
def Obligations.DeadlineMisses : Prop :=
  ∀ (portB : List (PortId × BufId)) (s : State), s.power.phase = .ready →
    (s.phase = 0 → s.tick.missCap = false → s.tick.boundary + s.deadline .capture < s.nextBoundary →
      ∃ t : State, exec (.phaseDeadline .capture portB) s = .next t.goOn ∧ t.tick.missCap = true ∧
        t.rd F.TK_MISS.CAPTURE = min (s.rd F.TK_MISS.CAPTURE + 1) 511) ∧
    (s.phase ≤ 1 → s.tick.missMap = false → s.tick.boundary + s.deadline .map < s.nextBoundary →
      s.rd F.TK_REACT.CHIP_MAP = 1 →
      ∃ t : State, exec (.phaseDeadline .map portB) s = .next t.goOn ∧ t.tick.missMap = true ∧ t.phase = s.phase ∧
        (∀ n, n < 96 → n ∈ t.tick.holdPorts) ∧ t.rd F.TK_MISS.MAP = min (s.rd F.TK_MISS.MAP + 1) 511) ∧
    (s.phase ≤ 2 → s.tick.missEmit = false → s.tick.boundary + s.deadline .emit < s.nextBoundary →
      ∃ t : State, exec (.phaseDeadline .emit portB) s = .next t.goOn ∧ t.tick.missEmit = true ∧
        t.rd F.TK_MISS.EMIT = min (s.rd F.TK_MISS.EMIT + 1) 511) ∧
    exec (.phaseDeadline .house portB) s = .next s.goOn

/-- CAPTURE_TRANSFER copies the newest complete record of a listed buffer into its capture area, zeros behind its
payload, once the transfers that come before it are made: those of buffers with a waiting store, where its own has
none (R198), and those that the rotation of its region grants first (R33); of the captured half it changes no other
word (R197). EMIT_TRANSFER claims S0 with XBUSY and, when it ends, has written the emit area into the record, both as
the descriptor named them at the claim (R204, R201). The payload of a profile's command buffer is composed from the
area by the actions of its channels: with action 3 the last command, with 4 and 5 the values of the policy, 4000 for a
channel in MDROP of an AIO-8, else the command, which action 0 to 2 keep as the last one; UNIV, FUNC0 and FUNC1 follow
the eight channels of an AIO-8 (R273, R277). RELEASE_TIME makes its buffer pending (Table 7-8). Rows that wait for a
due time move device time to it and never back (log entry 3). -/
def Obligations.TickTransfers : Prop :=
  ∀ (p : PortId) (d : BufId) (s : State), s.power.phase = .ready →
    let D := s.desc p d
    (s.phase = 0 → d.val ∈ (s.port p).listed →
      let u := s.capturesFirst p d
      let base := s.newestRecord p d
      let plen := State.plenOf (s.ram (p.val / 8) base).toNat
      ∃ t, exec (.captureTransfer p d) s = .next t ∧ d.val ∉ (t.port p).listed ∧
        (∀ i, i < D.xlen → t.capWord (D.img + i) =
          if i < min plen D.xlen then s.ram (p.val / 8) (base + 6 + i) else 0) ∧
        (∀ x, (x < D.img ∨ D.img + D.xlen ≤ x) → t.capWord x = u.capWord x) ∧
        (∀ i ∈ s.captureLeft, s.storeWaits i.1 i.2 = true → s.storeWaits p d = false → i.2 ∉ (t.port i.1).listed) ∧
        t = { s with captured := t.captured, ports := t.ports, crossIn := t.crossIn, wear := t.wear }) ∧
    (s.phase = 2 → d.val ∈ (s.port p).emitDue → (s.port p).xferOpen = none → s.busy p d = false → s.inPhase = true →
      let u := (s.advanceClk (max s.tick.phaseFrom (s.rewriteEnd p d))).claimsFirst (p.val / 8)
      ∃ t, exec (.emitTransfer p d .claim) s = .next t ∧ t.xbusy p d = true ∧
        (t.port p).xferOpen = some ⟨d, s.txRecord p d, D.img, D.xlen⟩ ∧
        d.val ∉ (t.port p).emitDue ∧ u.keepsRam (fun b i => b = p.val / 8 ∧ i = State.s0Word p d) t) ∧
    (∀ x, (s.port p).xferOpen = some x → x.buf = d.val → s.cbufOf p d = none → 0x2400 ≤ x.base →
      x.base + 6 + x.xlen ≤ 32768 →
      ∃ t, exec (.emitTransfer p d .close) s = .next t ∧ t.xbusy p d = false ∧ (t.port p).xferOpen = none ∧
        (∀ i, i < x.xlen → t.ram (p.val / 8) (x.base + 6 + i) = s.emitWord (x.img + i)) ∧
        s.keepsRam (fun b i => b = p.val / 8 ∧
          (i = State.s0Word p d ∨ x.base + 6 ≤ i ∧ i < x.base + 6 + x.xlen)) t) ∧
    (∀ x i, (s.port p).xferOpen = some x → x.buf = d.val → s.cbufOf p d = some i → 0x2400 ≤ x.base →
      x.base + 6 + 11 ≤ 32768 →
      let b := s.binding i
      let act (k : Nat) : Nat := Sparse.get 0 (s.bind i).actions k
      let area (k : Nat) : Nat := if k < x.xlen then (s.emitWord (x.img + k)).toNat else 0
      let cmd (k : Nat) : Nat := if b.isDO then b2n (bitOf (area 0) k) else vOf (area k)
      let value (k v : Nat) : Nat := if b.isAIO then v else b2n (bitOf v k)
      let out (k : Nat) : Nat :=
        if b.isAIO && bitOf b.mdrop k then 4000
        else if act k = 3 then Sparse.get 0 (s.bind i).lastCmd k
        else if act k = 4 then value k (s.policySubst b.policy)
        else if act k = 5 then value k (s.policySafe b.policy) else cmd k
      ∃ t, exec (.emitTransfer p d .close) s = .next t ∧ t.xbusy p d = false ∧ (t.port p).xferOpen = none ∧
        (b.isDO = true → t.ram (p.val / 8) (x.base + 6) =
          wordOf ((List.range 16).foldl (fun v k => v + out k * 2 ^ k) 0)) ∧
        (b.isDO = false →
          (∀ k, k < 8 → t.ram (p.val / 8) (x.base + 6 + k) = wordOf (if b.output k then out k else cmd k)) ∧
          t.ram (p.val / 8) (x.base + 14) = wordOf (b.univ * 2 ^ 8) ∧
          t.ram (p.val / 8) (x.base + 15) = wordOf b.func0 ∧ t.ram (p.val / 8) (x.base + 16) = wordOf b.func1) ∧
        (∀ k, k < (if b.isDO then 16 else 8) → (b.isDO = true ∨ b.output k = true) → act k ≤ 2 →
          Sparse.get 0 (t.bind i).lastCmd k = cmd k)) ∧
    (d.val ∈ (s.port p).relDue → s.tick.boundary + 16 * D.relofs < s.nextBoundary → D.xfer = false → D.isTx = true →
      s.asleep p = false → s.suspended p d = false →
      ∃ t, exec (.releaseTime p d) s = .next t ∧ d.val ∈ (t.port p).pend ∧ d.val ∉ (t.port p).relDue ∧
        t.tick.time = max s.tick.time (s.tick.boundary + 16 * D.relofs) ∧ t.blockRam = s.blockRam)

/-! ### The tick source (R58 to R67) -/

/-- A reference of the source in use whose number agrees and whose phase error lies within LOCKLIM keeps a LOCKED tick
unit locked, sets PHERR and adopts the announced period, and the slew to make is the phase error with the other sign
(log entry 88); far off in ACQUIRE with STEP_EN = 1 it makes a step: device time, of 54 bits, and the boundary of the
tick in progress move by the phase error, and the tick runs to BTIME + P; a tick word that fails its check is counted
and reported, and so is one whose SYNC does not come 384 to 416 clk after the edge, counted in MISSING (log entry 95,
the model's choice); a tick mark of the tether brings the tether's delay (R58, R59, R62, R67, R373). A TICK_IN edge
without a tick word is counted and reported; without a valid reference a LOCKED or TRACK tick unit enters HOLDOVER
with event 0x03; after 2 to the power HOLD_EXP ticks there it falls back to SRC2 with event 0x04 (R61, R67, Table
2-7). -/
def Obligations.TickReferences : Prop :=
  (∀ (edge : BitVec 54) (w : TickWord) (btime : BitVec 54) (num : BitVec 36) (period : BitVec 22)
      (delay : BitVec 12) (s : State),
    s.power.phase = .ready →
    let e := (edge.toNat : Int) - 2 - s.rd F.TK_HOPDLY.HOPDLY - w.btime.toNat
    let d := (edge.toNat : Int) - 2 - delay.toNat - btime.toNat
    let lim : Int := s.rd F.TK_HOPDLY.LOCKLIM
    let inTime := 384 ≤ w.gap.toNat ∧ w.gap.toNat ≤ 416
    let good := inTime ∧ w.syncOk = true ∧
      w.chk.toNat = State.tickChk w.tickNo.toNat w.btime.toNat w.period.toNat w.flags.toNat
    (s.sourceNow = 1 → s.rd F.TK_STATUS.STATE = 3 → good → s.periodOk w.period.toNat = true → -lim ≤ e → e ≤ lim →
      w.tickNo.toNat = s.tickNo →
      ∃ t, exec (.tickWordReceived edge w) s = .next t ∧ t.rd F.TK_STATUS.STATE = 3 ∧ t.tickNo = s.tickNo ∧
        t.rd F.TK_PHERR.PHERR = modBits 18 (max (-131071) (min 131071 e)) ∧ t.tick.adopted = some w.period.toNat ∧
        t.tick.slew = -e) ∧
    (s.sourceNow = 1 → s.rd F.TK_STATUS.STATE = 1 → good → s.periodOk w.period.toNat = true → (e < -lim ∨ lim < e) →
      s.flag F.TK_CTRL.STEP_EN = true →
      ∃ t, exec (.tickWordReceived edge w) s = .next t ∧ t.rd F.TK_STATUS.STATE = 2 ∧ t.tickNo = w.tickNo.toNat ∧
        (s.tick.boundary ≤ s.tick.time → t.now = modBits 54 ((s.tick.time : Int) - e) ∧
          t.tick.time - t.tick.boundary = s.tick.time - s.tick.boundary) ∧ t.tick.clk = s.tick.clk ∧
        t.tick.stepTo = some (t.tick.time +
          State.signed54 ((w.btime.toNat : Int) + w.period.toNat - t.tick.time)).toNat ∧
        s.postsEvent 0x02 0x07 0 t) ∧
    (s.sourceNow = 1 → s.rd F.TK_STATUS.STATE ≠ 0 → ¬ good →
      ∃ t, exec (.tickWordReceived edge w) s = .next t ∧ t.tick = s.tick ∧ s.postsEvent 0x02 0x08 0 t ∧
        (inTime → t.rd F.TK_WORDERR.CRCERR = min (s.rd F.TK_WORDERR.CRCERR + 1) 511) ∧
        (¬ inTime → t.rd F.TK_WORDERR.MISSING = min (s.rd F.TK_WORDERR.MISSING + 1) 511)) ∧
    (s.sourceNow = 2 → s.rd F.SP_PSTAT.LINK = 2 → s.rd F.TK_STATUS.STATE = 3 → s.periodOk period.toNat = true →
      -lim ≤ d → d ≤ lim → num.toNat = s.tickNo →
      ∃ t, exec (.tetherTickMark ⟨edge, delay⟩ btime num period) s = .next t ∧ t.rd F.TK_STATUS.STATE = 3 ∧
        t.rd F.SP_TDLY.DELAY = delay.toNat ∧
        t.rd F.TK_PHERR.PHERR = modBits 18 (max (-131071) (min 131071 d)) ∧ t.tick.adopted = some period.toNat)) ∧
  (∀ s : State, s.power.phase = .ready →
    (s.sourceNow = 1 → s.rd F.TK_STATUS.STATE ≠ 0 →
      ∃ t, exec .tickWordMissing s = .next t ∧ t.tick = s.tick ∧ s.postsEvent 0x02 0x08 0 t ∧
        t.rd F.TK_WORDERR.MISSING = min (s.rd F.TK_WORDERR.MISSING + 1) 511) ∧
    ((s.rd F.TK_STATUS.STATE = 2 ∨ s.rd F.TK_STATUS.STATE = 3) →
      ∃ t, exec .referenceMissing s = .next t ∧ t.rd F.TK_STATUS.STATE = 4 ∧ s.postsEvent 0x02 0x03 0 t ∧
        t.rd F.TK_WORDERR.MISSING = min (s.rd F.TK_WORDERR.MISSING + 1) 511) ∧
    (s.rd F.TK_STATUS.STATE = 4 → s.rd F.TK_SRC.HOLD_EXP ≠ 15 → 2 ^ s.rd F.TK_SRC.HOLD_EXP ≤ s.tick.holdTicks →
      s.rd F.TK_SRC.SRC2 ≠ s.rd F.TK_SRC.SRC → s.flag F.TK_STATUS.FALLBACK = false →
      ∃ t, exec .holdoverFallback s = .next t ∧ t.flag F.TK_STATUS.FALLBACK = true ∧ s.postsEvent 0x02 0x04 0 t ∧
        t.rd F.TK_STATUS.STATE = (if s.rd F.TK_SRC.SRC2 = 0 then 0 else 1)))

/-! ### Knots (chapter 9) -/

/-- KNOT_ISSUE of the lane whose next knot is due first: the knot executes in its clk on the images as they stand
then, its writes wait for their clk, a saturation is counted, an invalid knot is counted and makes no write, and the
list goes on at NEXT or ends with LAST (R246, R248, R255, R256). The clk are counted as R9 counts them, whatever
device time does in a slew. The half it writes is untouched until its writes land. The operations of Table 9-2 on a
valid knot: an UNPACK writes the value of its bit field, of 18 bits as they are, else a number clamped to 16 bits,
with the quality that QMODE names; a PACK writes the bits of its field alone, with the value clamped to the field; a
COPY writes the source word as it is; a LIMIT writes the value between its limits, clamped to 16 bits; a SCALE writes
clamp(floor((num × GAIN + rounding) / 2^SHIFT) + OFFSET) with the source's quality, made uncertain by a clamp; a
SUBSTITUTE passes a source of sufficient quality and otherwise writes the substitute with quality substituted (R248,
R250). An invalid knot and a NOP have no effect (R246). Rows that wait for a due time move device time to it and never
back (log entry 3). -/
def Obligations.KnotExecution : Prop :=
  (∀ (l : Fin 8) (n k left due : Nat) (s : State), s.power.phase = .ready → s.phase = 1 →
    State.Lane.due (s.lane l) = some ((n, k, left), due) → (s.advanceClk due).boundaryHere = false →
    ((List.range 8).any fun o => match s.laneDue o with | some u => u < due | none => false) = false →
    let u := (s.advanceClk due).landUpTo (due - 1)
    let kw : KnotWords := ⟨(s.knotWord k 0).toNat, (s.knotWord k 1).toNat, (s.knotWord k 2).toNat, (s.knotWord k 3).toNat⟩
    let img (h : Bool) (i : Nat) : Nat := if h then u.emitSeen l due i else (s.capWord i).toNat
    ∃ t, exec (.knotIssue l false) s = .next t ∧ t.gateway.lastIssue = some due ∧ t.emit = u.emit ∧
      t.captured = s.captured ∧
      (t.lane l).cur = (if kw.last || decide (left ≤ 1) then none else some (n, kw.next, left - 1)) ∧
      (kw.valid = false → t.rd F.GW_ERR.INVALID = min (s.rd F.GW_ERR.INVALID + 1) (F.GW_ERR.INVALID.size - 1) ∧
        t.gateway.inflight = u.gateway.inflight) ∧
      (∀ e, kw.effect img (fun w => (s.scaleWord kw.scidx w).toNat) = some e →
        t.gateway.inflight = State.insertKnot ⟨l, due, e.writes, e.target, e.result⟩ u.gateway.inflight ∧
        t.rd F.GW_SATCNT.SAT = if e.sat then min (s.rd F.GW_SATCNT.SAT + 1) (F.GW_SATCNT.SAT.size - 1)
          else s.rd F.GW_SATCNT.SAT)) ∧
  (∀ (k : KnotWords) (img : Bool → Nat → Nat) (e : Nat → Nat),
    (k.valid = false → k.effect img e = none) ∧ (k.op = 0 → k.effect img e = none) ∧
    (k.valid = true → k.op = 4 →
      k.effect img e = some ⟨[(k.dst, 2 ^ 18 - 1, img k.shalf k.src)], k.dst, img k.shalf k.src, false⟩) ∧
    (k.valid = true → k.op = 1 →
      let w := k.width + 1
      let s := img k.shalf
      let at' (j : Nat) : Nat := (k.src + (k.bitofs + j) / 18) % 65536
      let lo : Int := if k.sgn then -32768 else 0
      let hi : Int := if k.sgn then 32767 else 65535
      ∃ r f, k.effect img e = some r ∧ r.target = k.dst ∧ r.writes = [(k.dst, 2 ^ 18 - 1, r.result)] ∧
        (∀ j, j < w → Nat.testBit f (w - 1 - j) = (s (at' j)).testBit (17 - (k.bitofs + j) % 18)) ∧ f < 2 ^ w ∧
        (w = 18 → r.sat = false ∧ r.result = f) ∧
        (w ≠ 18 →
          let x : Int := if k.sgn && Nat.testBit f (w - 1) then (f : Int) - 2 ^ w else f
          let q := if k.qmode = 0 then qOf (s (at' 0)) else if k.qmode = 1 then 0
            else if k.qmode = 2 then qOf (s k.src) else max (qOf (s (at' 0))) (qOf (s k.src))
          (lo ≤ x → x ≤ hi → r.sat = false ∧ r.result = sigWord x q) ∧
          (x < lo → r.sat = true ∧ r.result = sigWord lo (max q 1)) ∧
          (hi < x → r.sat = true ∧ r.result = sigWord hi (max q 1)))) ∧
    (k.valid = true → k.op = 2 →
      let w := k.width + 1
      let s := img k.shalf k.src
      let x := numOf s k.sgn
      let lo : Int := if k.sgn then -(2 ^ (w - 1)) else 0
      let hi : Int := if k.sgn then 2 ^ (w - 1) - 1 else 2 ^ w - 1
      ∃ r, k.effect img e = some r ∧ r.target = (k.dst + k.bitofs / 18) % 65536 ∧
        r.writes = ((List.range w).map fun j =>
          ((k.dst + (k.bitofs + j) / 18) % 65536, 2 ^ (17 - (k.bitofs + j) % 18),
            if r.result.testBit (w - 1 - j) then 2 ^ (17 - (k.bitofs + j) % 18) else 0)) ∧
        (w = 18 → r.sat = false ∧ r.result = s) ∧
        (w ≠ 18 →
          (lo ≤ x → x ≤ hi → r.sat = false ∧ r.result = modBits w x) ∧
          (x < lo → r.sat = true ∧ r.result = modBits w lo) ∧ (hi < x → r.sat = true ∧ r.result = modBits w hi))) ∧
    (k.valid = true → k.op = 5 →
      let s := img k.shalf k.src
      let x := numOf s k.sgn
      let lo := signedOf 18 (e 0)
      let hi := signedOf 18 (e 1)
      let clamp (y : Int) : Int := if k.sgn then max (-32768) (min 32767 y) else max 0 (min 65535 y)
      ∃ r, k.effect img e = some r ∧ r.target = k.dst ∧ r.writes = [(k.dst, 2 ^ 18 - 1, r.result)] ∧
        (lo ≤ x → x ≤ hi → r.sat = false ∧ r.result = sigWord x (qOf s)) ∧
        (x < lo → r.sat = true ∧ r.result = sigWord (clamp lo) (max (qOf s) 1)) ∧
        (lo ≤ x → hi < x → r.sat = true ∧ r.result = sigWord (clamp hi) (max (qOf s) 1))) ∧
    (k.valid = true → k.op = 3 →
      let s := img k.shalf k.src
      let sh := bitsOf (e 2) 4 0
      let x := numOf s (bitOf (e 2) 5) * signedOf 18 (e 0)
      let y := (if bitOf (e 2) 7 && decide (0 < sh) then x + 2 ^ (sh - 1) else x) / 2 ^ sh + signedOf 18 (e 1)
      let lo : Int := if bitOf (e 2) 6 then -32768 else 0
      let hi : Int := if bitOf (e 2) 6 then 32767 else 65535
      ∃ r, k.effect img e = some r ∧ r.target = k.dst ∧ r.writes = [(k.dst, 2 ^ 18 - 1, r.result)] ∧
        (lo ≤ y → y ≤ hi → r.sat = false ∧ r.result = sigWord y (qOf s)) ∧
        (y < lo → r.sat = true ∧ r.result = sigWord lo (max (qOf s) 1)) ∧
        (hi < y → r.sat = true ∧ r.result = sigWord hi (max (qOf s) 1))) ∧
    (k.valid = true → k.op = 6 →
      let s := img k.shalf k.src
      let bad := qOf s = 3 ∨ (k.sthr = false ∧ qOf s = 1)
      (¬ bad → k.effect img e = some ⟨[(k.dst, 2 ^ 18 - 1, s)], k.dst, s, false⟩) ∧
      (bad → ∃ r, k.effect img e = some r ∧ r.sat = false ∧ r.target = k.dst ∧
        r.result = 2 * 2 ^ 16 + vOf (if k.smode then img true k.dst else e 0))))

/-! ### Events and the frame boundary -/

/-- EVENT_RECORD_PUSH writes the record that comes first in the order of R220 into the event queue with the running
number, or counts it lost where CEIL − 8 leaves no credit for it; EVENTS_LOST writes event 0x02 of class 0x07 with the
count, once CREDIT is 5 or more (R220, R392). -/
def Obligations.EventMerger : Prop :=
  ∀ s : State, s.power.phase = .ready →
    (∀ r rest, s.merger.lost = 0 → firstRecord s.merger.posted = some (r, rest) →
      ∃ t, exec .eventRecordPush s = .next t ∧ t.merger.posted = rest ∧
        t.merger.evseq = (s.merger.evseq + 1) % 16 ∧
        (r.body.length + 3 + 8 ≤ s.credit qEvent → t.merger.lost = 0 ∧ (t.queue qEvent).vis = (s.queue qEvent).vis ++
          packet ([pack [(r.cls, 12), (r.code, 4), (s.merger.evseq % 16, 0)]] ++ words 2 r.time ++ r.body)) ∧
        (s.credit qEvent < r.body.length + 3 + 8 → t.merger.lost = 1 ∧ t.merger.firstLost = r.time ∧
          t.queues = s.queues)) ∧
    (s.merger.lost ≠ 0 → 5 ≤ s.credit qEvent →
      ∃ t, exec .eventsLost s = .next t ∧ t.merger.lost = 0 ∧ t.merger.posted = s.merger.posted ∧
        (t.queue qEvent).vis = (s.queue qEvent).vis ++ packet
          ([pack [(7, 12), (2, 4), (s.merger.evseq % 16, 0)]] ++ words 2 s.merger.firstLost ++
            [pack [(qEvent, 8)], min s.merger.lost (2 ^ 18 - 1)]))

/-! ### Sleep and wake (chapter 12) -/

/-- NET_SLEEP on an ACTIVE native port opens a round that the device coordinates and queues its SLEEP_PROPOSE frame;
on a compatibility port it has the port sleep at the next boundary, in a boundary clk at the one after (R331, R336,
R340). NET_WAKE wakes a port that is asleep (in the clk of a round's sleep entry the wake is held for the next clk,
R334), and on an ACTIVE native port sends a WAKE frame; for the whole bus, GROUP 0x3F, it aborts an open whole-port
round or is held for a committed one, and by WACT drives the wake line from the next clk on and sends the WAKE frame
(R323, R334, R335). The row's packet is pushed, popped and started in one step (log entry 6); `u` is the state in
which its effect comes, after the wakes that a sleep entry has held are decided (R334, log entry 119). -/
def Obligations.SleepCommands : Prop :=
  ∀ (p : Packet) (s : State),
    let n := Operand.port (Operand.args p)
    let g := groupArg (Operand.args p)
    (s.starts cmdNetSleep p = true →
      let u := (s.begun cmdNetSleep p).rewakes
      u.isStandby = false →
      (u.compat n = false → u.portState n = 0 → (u.port n).round = none →
        (g = 0x3F → u.flag (F.PW_PCFG.HOLD n) = false) → (g ≠ 0x3F → u.flag (F.PW_GRP.GEN n g) = true) →
        (u.port n).net = none →
        ∃ t, exec (.netSleep p) s = .next t ∧ s.answered cmdNetSleep p 0x00 [] t ∧
          t.rd (F.PW_PSTAT.RSTATE n) = 1 ∧ t.rd (F.PW_PSTAT.ROUND n) = (u.rd (F.PW_PSTAT.ROUND n) + 1) % 64 ∧
          t.rd (F.PW_PSTAT.RGROUP n) = g ∧ t.flag (F.PW_PSTAT.COORD n) = true ∧ (t.port n).round.isSome ∧
          (t.port n).net = some ⟨u.rd F.PW_NPRI.NPRI,
            [pack [(1, 12), ((u.rd (F.PW_PSTAT.ROUND n) + 1) % 64, 6), (g, 0)], u.rd (F.PW_PCFG.VWIN n) * 2 ^ 10].map wordOf⟩) ∧
      (u.compat n = true → g = 0x3F → u.asleep n = false →
        ∃ t, exec (.netSleep p) s = .next t ∧ s.answered cmdNetSleep p 0x00 [] t ∧
          (t.port n).sleepIn = (if u.boundaryHere then 2 else 1))) ∧
    (s.starts cmdNetWake p = true →
      let u := (s.begun cmdNetWake p).rewakes
      u.isStandby = false →
      (u.asleep n = true → (u.port n).waking = none →
        (((u.port n).roundSlept = true → (u.port n).sleptAt ≠ u.clk) →
          ∃ t, exec (.netWake p) s = .next t ∧ s.replied cmdNetWake p 0x00 [] t ∧
            t.portState n = u.wakeState n % 8 ∧ t.rd (F.PW_PSTAT.LASTSRC n) = 4 ∧ u.postsEvent 0x0B 0x05 n t) ∧
        ((u.port n).roundSlept = true → (u.port n).sleptAt = u.clk → (u.port n).rewake = none →
          ∃ t, exec (.netWake p) s = .next t ∧ s.answered cmdNetWake p 0x00 [] t ∧ t.portState n = u.portState n ∧
            (t.port n).rewake = some ⟨u.clk + 1, u.now + 1, 0x3F, ⟨4, 0, 0x3FF⟩⟩)) ∧
      (u.portState n = 0 → (u.port n).waking = none → u.compat n = false → g ≠ 0x3F → (u.port n).net = none →
        ∃ t, exec (.netWake p) s = .next t ∧ s.answered cmdNetWake p 0x00 [] t ∧
          (t.port n).net = some ⟨u.rd F.PW_NPRI.NPRI, [pack [(4, 12), (g, 0)], 4].map wordOf⟩) ∧
      (u.portState n = 0 → (u.port n).waking = none → g = 0x3F →
        (∀ q, (u.port n).round = some q → q.sdly = none →
          ∃ t, exec (.netWake p) s = .next t ∧ s.answered cmdNetWake p 0x00 [] t ∧ (t.port n).round = none ∧
            t.rd (F.PW_PSTAT.RSTATE n) = 0 ∧ u.postsEvent 0x0B 0x02 n t ∧
            t.rd (F.PW_PCNT.ABORTS n) = min (u.rd (F.PW_PCNT.ABORTS n) + 1) 511) ∧
        (∀ q, (u.port n).round = some q → q.sdly.isSome = true → (u.port n).held = none →
          ∃ t, exec (.netWake p) s = .next t ∧ s.answered cmdNetWake p 0x00 [] t ∧ (t.port n).round = some q ∧
            (t.port n).held = some ⟨4, 0, 0x3FF⟩) ∧
        ((u.port n).round = none → (u.port n).net = none →
          ∃ t, exec (.netWake p) s = .next t ∧ s.answered cmdNetWake p 0x00 [] t ∧
            (bitOf (u.rd (F.PW_PCFG.WACT n)) 0 = true → (t.port n).wakeDrive = some (u.clk + 1)) ∧
            (bitOf (u.rd (F.PW_PCFG.WACT n)) 0 = false → (t.port n).wakeDrive = (u.port n).wakeDrive) ∧
            (t.port n).net = (if bitOf (u.rd (F.PW_PCFG.WACT n)) 1 && !u.compat n
              then some ⟨u.rd F.PW_NPRI.NPRI, [pack [(4, 12), (0x3F, 0)], 4].map wordOf⟩ else none))))

/-- Each wake source of Table 12-3 that its enable admits wakes a port that is asleep, outside the clk of a round's
sleep entry: its state becomes WAKEST, LASTSRC holds the source, LMDLY starts to count from the next clk on, and event
0x05 of class 0x0B reports the wake (R321 to R326, R339). The bus pattern is what the detector makes of the levels of
RXD; the umbra decoder wakes for a valid frame at one rate that a filter matches. In the clk of the decision a wake of
a lower source takes its place (R328). Rows that wait for a due time move device time to it and never back (log entry
3). `r` is the state before the wakes that a sleep entry has held are decided, and `s` the state after (R334, log
entry 119). -/
def Obligations.WakeSources : Prop :=
  (∀ (p : PortId) (r : State), r.power.phase = .ready →
    let s := r.rewakes
    s.asleep p = true → (s.port p).waking = none →
    ((s.port p).roundSlept = true → (s.port p).sleptAt < s.clk) →
    let woken (src : Nat) (t : State) : Prop :=
      t.portState p = s.wakeState p % 8 ∧ t.rd (F.PW_PSTAT.LASTSRC p) = src ∧ s.postsEvent 0x0B 0x05 p t ∧
        ((t.port p).waking.map fun w => (w.src, w.base)) = some (src, t.clk + 1) ∧ t.rd F.PW_WLOG.NEXT = (s.rd F.PW_WLOG.NEXT + 1) % F.PW_WLOG.NEXT.size
    (s.flag (F.PW_WCFG.WLEN p) = true → (∀ k, (s.port p).wakeDrive = some k → s.clk < k) →
      (∀ k, (s.port p).wakeOff = some k → k + s.rd (F.PW_WCFG.WLFILT p) * usClk ≤ s.clk) →
      ∃ t, exec (.wakeLine p) r = .next t ∧ woken 1 t) ∧
    (∀ levels : List (Bool × BitVec 32), s.flag (F.PW_WCFG.BPEN p) = true → (s.portState p = 2 ∨ s.portState p = 3) →
      ((s.port p).pattern.watch (s.rd (F.PW_WCFG.BPFILT p) * 20) (s.rd (F.PW_WCFG.BPWIN p) * State.msClk) s.clk
        (levels.map fun x => (x.1, x.2.toNat))).2.2 = true →
      ∃ t, exec (.busPatternWake ⟨p, levels⟩) r = .next t ∧ woken 2 t) ∧
    (∀ bits tim mode i, s.portState p = 3 → (s.port p).umbra = some (tim, mode) → s.flag (F.PW_WCFG.SWEN p) = true →
      let e : Ear := ⟨mode == 1, false, false, false⟩
      let sc := Scan.run' e {} bits []
      let f := sc.frame e
      sc.valid = true → sc.fast = false →
      (List.range 8).find? (fun i => s.wakeFilterHit p i (matchKey (mode == 1) f.h1 f.h2) f.payload) = some i →
      ∃ t, exec (.umbraFrame p bits) r = .next t ∧ woken 3 t) ∧
    (s.flag (F.PW_WTIMER.TKEN p) = true → s.rd (F.PW_WTICK.TICKNO p) = s.tickNo → s.tick.time = s.tick.boundary →
      ∃ t, exec (.tickWake p) r = .next t ∧ woken 5 t) ∧
    (s.flag (F.PW_WCFG.PWAKE p) = true → ∃ t, exec (.partnerWake p) r = .next t ∧ woken 6 t) ∧
    (s.flag (F.PW_WTIMER.TMEN p) = true →
      ∃ t, exec (.timerWake p) r = .next t ∧ woken 7 t ∧
        t.clk = max s.clk ((s.port p).sleptAt + s.rd (F.PW_WTIMER.MS p) * State.msClk))) ∧
  (∀ (p : PortId) (r : State) (w : Waking), r.power.phase = .ready →
    let s := r.rewakes
    s.asleep p = false → (s.port p).waking = some w → w.at' = s.clk →
    let takes (src : Nat) (t : State) : Prop :=
      t.rd (F.PW_PSTAT.LASTSRC p) = src ∧ (t.port p).waking = some { w with src := src } ∧
        t.portState p = s.wakeState p % 8 ∧ t.rd F.PW_WLOG.NEXT = s.rd F.PW_WLOG.NEXT
    (1 < w.src → s.flag (F.PW_WCFG.WLEN p) = true → (∀ k, (s.port p).wakeDrive = some k → s.clk < k) →
      (s.port p).wakeOff = none → ∃ t, exec (.wakeLine p) r = .next t ∧ takes 1 t) ∧
    (6 < w.src → s.flag (F.PW_WCFG.PWAKE p) = true → ∃ t, exec (.partnerWake p) r = .next t ∧ takes 6 t) ∧
    (w.src ≤ 1 → exec (.wakeLine p) r = .next s) ∧ (w.src ≤ 6 → exec (.partnerWake p) r = .next s))

/-- The rows of a sleep round and of a port's pins. VOTE_WINDOW_CLOSE aborts a round with too few AGREE votes (event
0x02) and otherwise queues its SLEEP_COMMIT; SLEEP_ENTRY sets a group's sleep bit, or has a port whose bus is busy
wait for its frame boundary; LMDLY_EXPIRY lets the cell of a powered port integrate; WAKE_PULSE_END releases the pin;
an expired bus pattern window starts the detector again, in which a dominant level held for BPFILT is a first phase
(R321, R323, R324, R331, R333). A wake held at a sleep entry is decided in the clk after it, with source 0x8 (R334):
by the first row of a later clk that can show it (log entry 119); `r` is the state before such wakes and `s` the state
after. Rows that wait for a due time move the clk to it and never back (log entry 3). -/
def Obligations.SleepRounds : Prop :=
  (∀ (n : Nat) (s : State) (x : Rewake), (s.port n).rewake = some x →
    (s.clk < x.at' → s.rewakePort n = s) ∧
    (x.at' ≤ s.clk → x.group = 0x3F → s.asleep n = true → (s.port n).waking = none →
      let t := s.rewakePort n
      (t.port n).rewake = none ∧ t.portState n = s.wakeState n % 8 ∧ t.rd (F.PW_PSTAT.LASTSRC n) = 8 ∧
        t.rd (F.PW_PCNT.REWAKE n) = min (s.rd (F.PW_PCNT.REWAKE n) + 1) ((F.PW_PCNT.REWAKE n).size - 1) ∧
        s.postsEvent 0x0B 0x05 n t) ∧
    (x.at' ≤ s.clk → x.group < 32 → bitOf (s.rd (F.PW_GSLEEP.GSLEEP n)) x.group = true →
      let t := s.rewakePort n
      (t.port n).rewake = none ∧ bitOf (t.rd (F.PW_GSLEEP.GSLEEP n)) x.group = false ∧
        t.rd (F.PW_PCNT.REWAKE n) = min (s.rd (F.PW_PCNT.REWAKE n) + 1) ((F.PW_PCNT.REWAKE n).size - 1) ∧
        s.postsEvent 0x0B 0x05 n t)) ∧
  (∀ (p : PortId) (r : State), r.power.phase = .ready →
    let s := r.rewakes
    (∀ q, (s.port p).round = some q → q.window = some 0 → q.sdly = none → s.flag (F.PW_PSTAT.COORD p) = true →
      (q.agree.length < s.rd (F.PW_PCFG.MINVOTE p) →
        ∃ t, exec (.voteWindowClose p) r = .next t ∧ (t.port p).round = none ∧ t.rd (F.PW_PSTAT.RSTATE p) = 0 ∧
          s.postsEvent 0x0B 0x02 p t) ∧
      (s.rd (F.PW_PCFG.MINVOTE p) ≤ q.agree.length → s.isStandby = false → s.compat p = false → (s.port p).net = none →
        ∃ t, exec (.voteWindowClose p) r = .next t ∧ (t.port p).round = some { q with window := none } ∧
          (t.port p).net = some ⟨s.rd F.PW_NPRI.NPRI, [pack [(3, 12), (s.rd (F.PW_PSTAT.ROUND p), 6),
            (s.rd (F.PW_PSTAT.RGROUP p), 0)], s.rd (F.PW_PCFG.SDLY p) * 2 ^ 10].map wordOf⟩)) ∧
    (∀ q, (s.port p).round = some q → q.sdly = some 0 → (s.port p).roundSleep = false →
      (s.rd (F.PW_PSTAT.RGROUP p) < 32 → s.rd (F.PW_GSLEEP.GSLEEP p) < 2 ^ 32 →
        ∃ t, exec (.sleepEntry p) r = .next t ∧ (t.port p).round = none ∧ s.postsEvent 0x0B 0x04 p t ∧
          bitOf (t.rd (F.PW_GSLEEP.GSLEEP p)) (s.rd (F.PW_PSTAT.RGROUP p)) = true ∧
          (∀ h, (s.port p).held = some h → (s.port p).rewake = none →
            (t.port p).rewake = some ⟨s.clk + 1, s.now + 1, s.rd (F.PW_PSTAT.RGROUP p), h⟩)) ∧
      (s.rd (F.PW_PSTAT.RGROUP p) = 0x3F → s.busIdle p = false →
        ∃ t, exec (.sleepEntry p) r = .next t ∧ (t.port p).powerNext = some (s.rd (F.PW_PCFG.SLEEPST p)) ∧
          (t.port p).roundSleep = true ∧ t.regs = s.regs) ∧
      (s.rd (F.PW_PSTAT.RGROUP p) = 0x3F → s.busIdle p = true → 2 ≤ s.rd (F.PW_PCFG.SLEEPST p) →
        ∃ t, exec (.sleepEntry p) r = .next t ∧ t.portState p = s.rd (F.PW_PCFG.SLEEPST p) % 8 ∧ (t.port p).round = none ∧
          s.postsEvent 0x0B 0x04 p t ∧ (t.port p).sleptAt = s.clk ∧
          (∀ h, (s.port p).held = some h → (s.port p).rewake = none →
            (t.port p).rewake = some ⟨s.clk + 1, s.now + 1, 0x3F, h⟩))) ∧
    (∀ w, (s.port p).waking = some w → s.blockOn (p.val / 8) = true →
      ∃ t, exec (.lmdlyExpiry p) r = .next t ∧ (t.port p).waking = none ∧ t.regs = s.regs ∧
        t.clk = max s.clk (w.base + s.rd (F.PW_PCFG.LMDLY p) * 200)) ∧
    (∀ k, (s.port p).wakeDrive = some k →
      ∃ t, exec (.wakePulseEnd p) r = .next t ∧ (t.port p).wakeDrive = none ∧ (t.port p).wakeOff = some t.clk ∧
        t.clk = max s.clk (k + s.rd (F.PW_WCFG.WPULSE p) * 200)) ∧
    (let d := (s.port p).pattern
     let stop := d.first + s.rd (F.PW_WCFG.BPWIN p) * State.msClk + 1
     (d.phases = 0 → exec (.busPatternWindowExpiry p) r = .next s) ∧
     (d.phases ≠ 0 →
      ∃ t, exec (.busPatternWindowExpiry p) r = .next t ∧ t.clk = max s.clk stop ∧ t.regs = s.regs ∧
        (d.level = true ∨ stop < s.clk - d.run + s.rd (F.PW_WCFG.BPFILT p) * 20 → (t.port p).pattern.phases = 0) ∧
        (d.level = false → s.clk - d.run + s.rd (F.PW_WCFG.BPFILT p) * 20 ≤ stop →
          (t.port p).pattern.phases = 1 ∧ (t.port p).pattern.first = stop))))

/-- BLOCK_POWER_OFF, where every port of the block is in UMBRA or DARK and no transfer is open: its domain bit clears,
every word of its RAM reads 0 and its queues are empty, and no other block's RAM changes. BLOCK_POWER_UP_COMPLETE
clears the block's PWRUP bit and that of its ports, none of whose buffers is pending then (R31, R180, R318). `r` is
the state before the wakes that a sleep entry has held are decided, and `s` the state after (R334, log entry 119). The
RAM's words are lost while the domain is off and 0 once it is on again; the model makes them 0 at once (log entry 5).
-/
def Obligations.BlockPower : Prop :=
  ∀ (b : BlockId) (r : State), r.power.phase = .ready →
    let s := r.rewakes
    (s.blockOn b = true →
      ((State.blockPorts b).all fun n => decide (3 ≤ s.portState n) && (s.port n).xferOpen.isNone) = true →
      ∃ t, exec (.blockPowerOff b) r = .next t ∧
        t.rd F.SYS_PWRDOM.ON = (s.rd F.SYS_PWRDOM.ON - 2 ^ b.val) % F.SYS_PWRDOM.ON.size ∧
        (∀ i, t.ram b i = 0) ∧ (∀ b', b' ≠ b.val → ∀ i, t.ram b' i = s.ram b' i) ∧
        (∀ q ∈ State.blockQids b, (t.queue q).vis = [] ∧ (t.queue q).opened = [])) ∧
    (bitOf (s.rd F.SYS_PWRDOM.PWRUP) b = true →
      ∃ t, exec (.blockPowerUpComplete b) r = .next t ∧
        t.rd F.SYS_PWRDOM.PWRUP = (s.rd F.SYS_PWRDOM.PWRUP - 2 ^ b.val) % F.SYS_PWRDOM.PWRUP.size ∧
        (∀ n ∈ State.blockPorts b, t.rd (F.PW_PSTAT.PWRUP n) = 0 ∧ (t.port n).pend = []) ∧ t.blockRam = s.blockRam)

/-! ### Spares, wear and telemetry (chapter 13) -/

/-- CELL_FAULT and HEARTBEAT_SAMPLE fail a cell for a HARD cause: its FAILED bit and cause are recorded and reported
by event 0x01 of class 0x0C, and the retirement enters the wear ledger (R343, R366, Table 13-1). TAKEOVER_LOAD_DONE on
a busy bus leaves the switch of the routing to the frame boundary of the port, and on an idle bus routes the port to
the mirror cell with the error counters of the decision and the confinement state that follows from them (R351; the
idle case is log entry 20). MIRROR_FRAME_VALID, for a frame in scope that the mirror cell has decoded, pairs it with
the serving cell's first report within 8 clk and counts the comparison and a disagreement, or keeps it until it is
paired (R346, R347; log entry 99). -/
def Obligations.CellFaultsAndMirror : Prop :=
  (∀ (c : CellId) (b : BlockId) (s : State), s.power.phase = .ready →
    (∀ localRam counts busIdle, s.blockOn (c.val / 9) = true → s.cellFailed c = false → s.wear.live.length < 64 →
      s.inLedger 0 c = false →
      ∃ t, exec (.cellFault c ⟨localRam, counts⟩ busIdle) s = .next t ∧ t.cellFailed c = true ∧
        t.rd (State.causeField c) = (if localRam then 3 else 1) ∧ s.postsEvent 0x0C 0x01 c t ∧
        t.wear.live = s.wear.live ++ [⟨false, 0, c, if localRam then 3 else 1, 0, s.tickNo⟩]) ∧
    (∀ toggled busIdle k, k < 9 → toggled.getLsbD k = false → s.heldInReset (9 * b.val + k) = false →
      let c' := 9 * b.val + k
      ∃ t, exec (.heartbeatSample b toggled busIdle) s = .next t ∧ t.cellFailed c' = true ∧
        (s.cellFailed c' = false → t.rd (State.causeField c') = 2 ∧ s.postsEvent 0x0C 0x01 c' t ∧
          (s.wear.live.length + 9 ≤ 64 → s.inLedger 0 c' = false → ⟨false, 0, c', 2, 0, s.tickNo⟩ ∈ t.wear.live))) ∧
    (∀ busIdle, exec (.heartbeatSample b 0x1FF busIdle) s = .next s)) ∧
  (∀ (b : BlockId) (s : State), s.power.phase = .ready →
    (∀ x n, (s.block b).takeover = some x → s.servedPort (9 * b.val + x.slot) = some n → s.busIdle n = false →
      ∃ t, exec (.takeoverLoadDone b) s = .next t ∧ (t.port n).routeNext = some 8 ∧
        (t.block b).takeover = some x ∧ t.regs = s.regs) ∧
    (∀ x k, x.slot < 8 → k < 8 → x.tec ≤ 256 → x.recv < 256 → (s.block b).takeover = some x →
      s.servedPort (9 * b.val + x.slot) = some (8 * b.val + k) → s.busIdle (8 * b.val + k) = true →
      ∃ t, exec (.takeoverLoadDone b) s = .next t ∧ t.rd (State.slotField b k) = 8 ∧
        t.tec (State.mirror b) = x.tec ∧ t.rec' (State.mirror b) = x.recv ∧ (t.block b).takeover = none ∧
        t.conf (State.mirror b) = (if 256 ≤ x.tec then 3 else if x.hard = false then 0
          else if 128 ≤ x.tec ∨ 128 ≤ x.recv then 2 else 1) ∧
        s.postsEvent 0x0C 0x02 (9 * b.val + x.slot) t) ∧
    (∀ bits last (stamp : BitVec 36),
      let k := s.rd (F.BK_PINMUX.MLISTEN b)
      let e := s.ear (8 * b.val + k) false
      let f := (Scan.run' e {} (bits ++ [last]) []).frame e
      (Scan.run' e {} (bits ++ [last]) []).valid = true → s.inScope b k stamp.toNat = true →
      (∀ r rest, State.takeFirst (fun r => State.stampGap stamp.toNat r.2.1 ≤ 8) (s.block b).reports = some (r, rest) →
        let agree := f.h1 = r.1.h1 ∧ f.h2 = r.1.h2 ∧ f.h3 = r.1.h3 ∧ f.crc = r.1.crc ∧ State.stampGap stamp.toNat r.2.1 ≤ 2
        ∃ t, exec (.mirrorFrameValid b bits last stamp) s = .next t ∧ (t.block b).reports = rest ∧
          t.rd (F.BK_MCHK.COMPARED b) = min (s.rd (F.BK_MCHK.COMPARED b) + 1) ((F.BK_MCHK.COMPARED b).size - 1) ∧
          (agree → t.rd (F.BK_MCHK.DISAG b) = s.rd (F.BK_MCHK.DISAG b)) ∧
          (¬ agree →
            t.rd (F.BK_MCHK.DISAG b) = min (s.rd (F.BK_MCHK.DISAG b) + 1) ((F.BK_MCHK.DISAG b).size - 1))) ∧
      (State.takeFirst (fun r => State.stampGap stamp.toNat r.2.1 ≤ 8) (s.block b).reports = none →
        ∃ t, exec (.mirrorFrameValid b bits last stamp) s = .next t ∧ t = { s with blocks := t.blocks } ∧
          (t.block b).heard = (s.block b).heard ++ [(f, stamp.toNat, s.clk)])))

/-- ENGINE_CHECKER_ERROR is counted and fails the engine, and in MAP voids the digest; SELFTEST_COMPLETE ends the
command that ran the test, with 1 and the signature 0 for a unit that passes and with 0 and an open fault signature
for one that fails (log entry 4), and with its last step taken (R404): an engine, a cell that is not returning to its
port or a lane; OTP_PROGRAMMING_DONE stores the record at the lowest free position (R355, R368, Table 14-7). -/
def Obligations.EnginesAndTests : Prop :=
  ∀ (s : State), s.power.phase = .ready →
    let tested (h : Handoff) (result : List Nat) (t : State) : Prop :=
      t.regs = s.regs ∧ { h with ended := some (0, result) } ∈ t.engine.handoffs ∧
        ∀ x, Sparse.find s.engine.ledger h.slot = some x →
          Sparse.find t.engine.ledger h.slot = some { x with state := 1, k := x.n }
    (∀ e : Fin 9, s.engineFailed e = false → s.rd F.SP_ENGINE.FAILED < 512 →
      ∃ t, exec (.engineCheckerError e) s = .next t ∧ t.engineFailed e = true ∧ s.postsEvent 0x0C 0x01 e t ∧
        (s.phase = 1 → t.gateway.digestVoid = true) ∧
        t.rd F.SP_ENGINE.CHKERR = min (s.rd F.SP_ENGINE.CHKERR + 1) (F.SP_ENGINE.CHKERR.size - 1)) ∧
    (∀ (e : Fin 9) (h : Handoff), s.handoff 0x59 (128 + e.val) = none → s.handoff 0x71 (128 + e.val) = some h →
      (∃ t, exec (.selftestComplete (.engine e) true) s = .next t ∧ tested h [1, 0] t) ∧
      (∃ t, exec (.selftestComplete (.engine e) false) s = .next t ∧
        tested h [0, Config.freeValue s.free % 2 ^ 18] t)) ∧
    (∀ (c : CellId) (h : Handoff) (pass : Bool), (∀ x, (s.block (c.val / 9)).returning = some x → x.1 ≠ c.val % 9 ∨ x.2 = true) →
      s.handoff 0x71 c.val = some h →
      ∃ t, exec (.selftestComplete (.cell c) pass) s = .next t ∧
        tested h (if pass then [1, 0] else [0, Config.freeValue s.free % 2 ^ 18]) t) ∧
    (∀ (l : Fin 3) (h : Handoff) (pass : Bool), s.handoff 0x59 (256 + l.val) = none → s.handoff 0x71 (256 + l.val) = some h →
      ∃ t, exec (.selftestComplete (.lane l) pass) s = .next t ∧
        tested h (if pass then [1, 0] else [0, Config.freeValue s.free % 2 ^ 18]) t) ∧
    (∀ r x, s.wear.programming = some r → s.wear.live[r]? = some x → s.wear.otp.length < 64 →
      ∃ t, exec .otpProgrammingDone s = .next t ∧ t.wear.otp = s.wear.otp ++ [some { x with otp := true }] ∧
        t.wear.programming = none ∧ t.rd F.SP_LEDGER.OTP = s.wear.otp.length + 1)

/-- SCRUB_ACCESS counts what it finds in a word of block RAM and reports an uncorrectable one by event 0x09 with the
spare row of its row, and the last word of the last RAM ends the pass; ROW_COPY_DONE maps the row to its spare row and
counts a row retired for the first time; AGING_MEASUREMENT stores the nine margin codes of a powered block (R359 to
R363, R366). -/
def Obligations.ScrubAndAging : Prop :=
  ∀ (b : BlockId) (s : State), s.power.phase = .ready →
    (∀ addr : BitVec 18, exec (.scrubAccess (.block b) addr .clean) s = .next s) ∧
    (∀ addr : BitVec 18,
      ∃ t, exec (.scrubAccess (.block b) addr .corrected) s = .next t ∧ t.blockRam = s.blockRam ∧
        t.rd (F.BK_ECC.CORR b) = min (s.rd (F.BK_ECC.CORR b) + 1) ((F.BK_ECC.CORR b).size - 1)) ∧
    (∀ addr : BitVec 18,
      let row := addr.toNat % 32768 / 64
      ∃ t, exec (.scrubAccess (.block b) addr .uncorrectable) s = .next t ∧
        s.postsEvent 0x0C 0x09 ((s.rowTarget (.block b) row).getD 0 * 128 + b) t ∧
        t.blockRam = s.blockRam ∧
        t.rd (F.BK_ECC.UNCORR b) = min (s.rd (F.BK_ECC.UNCORR b) + 1) ((F.BK_ECC.UNCORR b).size - 1)) ∧
    (∃ t, exec (.scrubAccess .patch 4095 .clean) s = .next t ∧
      t.rd F.SP_SCRUB.PASSES = (s.rd F.SP_SCRUB.PASSES + 1) % F.SP_SCRUB.PASSES.size) ∧
    (∀ (row : BitVec 12) x, (s.wear.copies.find? fun x => x.ram == .block b && x.row == row.toNat) = some x →
      ∃ t, exec (.rowCopyDone (.block b) row) s = .next t ∧ x ∈ t.wear.retired ∧ x ∉ t.wear.copies ∧
        t.rd (F.BK_ROWS.USED b) = (if s.wear.retired.any fun y => y.ram == .block b && y.row == row.toNat
          then s.rd (F.BK_ROWS.USED b) else min (s.rd (F.BK_ROWS.USED b) + 1) ((F.BK_ROWS.USED b).size - 1))) ∧
    (∀ codes : BitVec 36, s.blockOn b = true →
      ∃ t, exec (.agingMeasurement b codes) s = .next t ∧
        ∀ k, k < 9 → t.rd (State.marginField (9 * b.val + k)) = bitsOf codes.toNat (4 * k + 3) (4 * k))

/-- SPARE_TAKE fails the named unit with cause 0x5 and is handed off while its spare takes over, or moves a tether
lane at once; SPARE_RETURN, SELFTEST and WEAR_RECORD are handed off to their units (R354, R357, R358, R368, R394,
R401). That the take of a lane ends at once, with a reply, is the model's reading (log entry 26). A command whose
spare is not free completes with status 0x0A. The row's packet is pushed, popped and started in one step (log entry
6). -/
def Obligations.SpareCommands : Prop :=
  ∀ (p : Packet) (s : State),
    let a := Operand.args p
    (∀ c, s.starts cmdSpareTake p = true → unitArg a = some (.cell c) → s.mirrorFree (c.val / 9) = true →
      ∃ t, exec (.spareTake p) s = .next t ∧ s.handedOff cmdSpareTake p c t ∧ t.cellFailed c = true ∧
        t.rd (State.causeField c) = 5) ∧
    (∀ c, s.starts cmdSpareTake p = true → unitArg a = some (.cell c) → s.mirrorFree (c.val / 9) = false →
      ∃ t, exec (.spareTake p) s = .next t ∧ s.answered cmdSpareTake p 0x0A [] t ∧ s.onlyEngine [] t) ∧
    (∀ e, s.starts cmdSpareTake p = true → unitArg a = some (.engine e) →
      (s.spareReady = true → s.rd F.SP_ENGINE.FAILED < 512 →
        ∃ t, exec (.spareTake p) s = .next t ∧ s.handedOff cmdSpareTake p (128 + e.val) t ∧ t.engineFailed e = true) ∧
      (s.spareReady = false →
        ∃ t, exec (.spareTake p) s = .next t ∧ s.answered cmdSpareTake p 0x0A [] t ∧ s.onlyEngine [] t)) ∧
    (∀ l x, s.starts cmdSpareTake p = true → unitArg a = some (.lane l) →
      ((List.range 3).find? fun x => x != l.val && !s.laneFailed x && !s.laneCarries x) = some x →
      s.rd F.SP_LANE.FAILED < 8 →
      ∃ t, exec (.spareTake p) s = .next t ∧ s.answered cmdSpareTake p 0x00 [x] t ∧ t.laneFailed l = true) ∧
    (∀ b k, s.starts cmdSpareReturn p = true → unitArg a = some (.cell b) → s.mirrorServes b = some k →
      State.hardCause (s.rd (State.causeField (9 * b.val + k))) = false → s.inLedger 0 (9 * b.val + k) = false →
      ∃ t, exec (.spareReturn p) s = .next t ∧ s.handedOff cmdSpareReturn p b t ∧
        (t.block b).returning = some (k, false)) ∧
    (∀ u, s.starts cmdSelftest p = true → unitArg a = some u → s.testBusy u = false →
      ∃ t, exec (.selftest p) s = .next t ∧ s.handedOff cmdSelftest p (unitTag u) t ∧
        t = { s with regs := t.regs, recorded := t.recorded, queues := t.queues, engine := t.engine, pair := t.pair } ∧
        t.pair = { s.pair with streamStatus := t.pair.streamStatus, out := t.pair.out, overflow := t.pair.overflow }) ∧
    (s.starts cmdWearRecord p = true → s.canProgram = true → s.wear.programming = none →
      ∃ t, exec (.wearRecord p) s = .next t ∧ s.handedOff cmdWearRecord p (bitsOf (Operand.word a 2) 5 0) t ∧
        t.wear.programming = some (bitsOf (Operand.word a 2) 5 0))

/-- FRAME_BOUNDARY: the bus of the port becomes idle and its cell decodes anew; a mode or timing change that waited
for it takes effect, unless the cell sends a frame in internal loopback, and so does a change to ACTIVE or QUIET and a
change of role; with the listen mode of the port ends the rate search of its cell (R90, R123, R142, R147, R321, R380,
R478). -/
def Obligations.FrameBoundary : Prop :=
  ∀ (p : PortId) (s : State), s.power.phase = .ready →
    let c := s.servingCell p
    (s.cell c).rxSof ≠ some (s.tick.time - 2) → (s.port p).routeNext = none →
    (s.block (p.val / 8)).moveTo ≠ some (p.val % 8) →
    ((s.port p).timingChange = false → (s.port p).powerNext = none →
      ∃ t, exec (.frameBoundary p) s = .next t ∧ (t.cell c).flag = [] ∧ (t.cell c).rxSof = none ∧
        (t.cell c).stopped = false ∧ (t.port p).busySince = none ∧ (t.port p).roleChange = false ∧
        (t.cell c).attempt = (s.cell c).attempt ∧ t.blockRam = s.blockRam ∧
        (s.rd (F.CL_ARSTAT.STATE c) = 0 → s.rd (F.BK_PINMUX.MLISTEN (p.val / 8)) ≠ p.val % 8 → t.regs = s.regs) ∧
        (s.portState p = 0 → s.isStandby = false → (s.port p).busTest ≠ 1 → s.searching c = true →
          t.rd (F.CL_ARSTAT.STATE c) = 5 ∧ s.postsEvent 0x05 0x03 c t)) ∧
    ((s.port p).timingChange = true → (s.port p).powerNext = none → s.loops p = true →
      ∃ t, exec (.frameBoundary p) s = .next t ∧ (t.port p).timingChange = true ∧
        (t.port p).busProto = (s.port p).busProto ∧ (t.port p).busTest = (s.port p).busTest) ∧
    ((s.port p).timingChange = true → (s.port p).powerNext = none → s.loops p = false →
      ∃ t, exec (.frameBoundary p) s = .next t ∧ (t.port p).timingChange = false ∧
        (t.port p).busProto = s.rd (F.CL_OPMODE.PROTO (State.home p)) ∧
        (t.port p).busTest = s.rd (F.CL_OPMODE.TEST (State.home p)) ∧ (t.cell c).ready = none) ∧
    (∀ st, (s.port p).timingChange = false → (s.port p).powerNext = some st → st < 2 →
      ∃ t, exec (.frameBoundary p) s = .next t ∧ t.portState p = st ∧ (t.port p).powerNext = none ∧
        (t.port p).lm = lmCode st)

/-! ### The host port (chapters 15 and 16) -/

/-- REGISTER_WRITE of a register of the device, of a block or of a cell that is powered, by a host that starts no
action: each st field takes its value in the staging copy that governs it (that of the port, for one of a cell page),
each rw field takes its value at once, each w1c bit written 1 is cleared but for one that the device sets in the same
clk, an illegal value changes nothing, and no other register changes but the engine's journal, whose entry a staged
write makes (R11, R12, R14, R403, R437). The active device of a pair forwards the write (R373). While a commit waits,
a write that would change a staging copy is discarded, counted and reported (R398, R426); on a standby its own host
writes no st or rw field (R374). `s` is the state in the presentation clk (R418). -/
def Obligations.RegisterWrites : Prop :=
  ∀ (a : HostAddr) (d : Dword) (fs : Reg) (h : State), h.hostOn = true →
    let s := h.hostSlot a.toNat
    (targetOf a.toNat = .reg fs ∨ (∃ b, targetOf a.toNat = .blockReg b fs ∧ s.blockOn b = true) ∨
      ∃ c r, targetOf a.toNat = .cellReg c r ∧ s.blockOn (c / 9) = true ∧ fs = r.filterMap (s.pageField c)) →
    (fs.map Field.key).Nodup →
    (∀ f ∈ fs, 1 ≤ f.width ∧ f.addr < 2 ^ 20 ∧ f.lo < 64 ∧ (f.acc = .st ∨ f.acc = .rw ∨ f.acc = .w1c →
      f.key ∉ [F.CE_JLOG.NEXT.key, F.CE_JLOG.TOTAL.key, F.CE_CNT.LOCKDISC.key, F.HP_DISCAP.CAUSE.key,
        F.HP_DISCAP.RD.key, F.HP_DISCAP.ADDR.key, F.HP_ERR.DISC.key])) →
    (∀ f ∈ fs, f.acc = .sc ∨ (f.addr = 0x10 ∧ f.lo = 0) → f.of d.toNat = 0) →
    (∀ f ∈ fs, f.acc = .rw → 0x4000 ≤ f.addr → f.addr < 0x4600 →
      (∃ n, f = F.PW_PCFG.HOLD n) ∧ (f.of d.toNat = 0 ∨ s.flag f = true)) →
    let takesRw (t : State) : Prop :=
      ∀ f ∈ fs, f.acc = .rw → t.rd f = if f.legal (f.of d.toNat) then f.of d.toNat else s.rd f
    let clears (t : State) : Prop :=
      ∀ f ∈ fs, f.acc = .w1c → t.rd f = if f.of d.toNat = 1 ∧ s.recordedNow f = none then 0 else s.rd f
    (s.isStandby = false → s.locked = false →
      ∃ t, exec (.registerWrite a d) h = .next t ∧ takesRw t ∧ clears t ∧
        (∀ f ∈ fs, f.acc = .st →
          t.staged f = if State.classHas f && f.legal (f.of d.toNat) then f.of d.toNat else s.staged f) ∧
        (∀ k, (∀ f ∈ fs, f.acc = .st → f.key ≠ k) →
          (∀ f ∈ fs, 0x80000 ≤ f.addr → f.addr < 0x80080 → k ≠ touchWindow ((f.addr - 0x80000) / 8)) →
          Sparse.find t.stage k = Sparse.find s.stage k) ∧
        s.keepsRegs ([F.CE_JLOG.NEXT.key, F.CE_JLOG.TOTAL.key] ++
          (fs.filter fun f => f.acc == .rw || f.acc == .w1c).map Field.key) t ∧
        ((∃ f ∈ fs, f.acc = .st ∧ State.classHas f = true ∧ f.legal (f.of d.toNat) = true) →
          Sparse.find t.engine.journal (s.rd F.CE_JLOG.NEXT) = some ([pack [(2, 2)], 0] ++ words 2 s.tickNo ++
            words 2 s.now ++ [a.toNat % 2 ^ 18, a.toNat / 2 ^ 18])) ∧
        (s.streams a.toNat d.toNat = true →
          s.forwards (.hostWrite a d (BitVec.ofNat 36 (s.tickNo + 1 + b2n s.boundaryHere))) t) ∧
        (s.streams a.toNat d.toNat = false → t.pair = s.pair) ∧
        t.engine = { s.engine with journal := t.engine.journal } ∧
        t = { s with regs := t.regs, recorded := t.recorded, stage := t.stage, stageWas := t.stageWas, engine := t.engine
                     pair := t.pair }) ∧
    (s.isStandby = false → s.locked = true →
      ∃ t, exec (.registerWrite a d) h = .next t ∧ takesRw t ∧ clears t ∧ t.stage = s.stage ∧ t.engine = s.engine ∧
        ((∃ f ∈ fs, f.acc = .st ∧ State.classHas f = true ∧ f.legal (f.of d.toNat) = true ∧
            f.of d.toNat ≠ s.staged f) → t.rd F.HP_DISCAP.CAUSE = 5 ∧ t.pair = s.pair ∧
          t.rd F.CE_CNT.LOCKDISC = min (s.rd F.CE_CNT.LOCKDISC + 1) (F.CE_CNT.LOCKDISC.size - 1))) ∧
    (s.isStandby = true → 2 ≤ a.toNat → (∃ f ∈ fs, (f.acc = .st ∧ State.classHas f = true) ∨ f.acc = .rw) →
      ∃ t, exec (.registerWrite a d) h = .next t ∧ clears t ∧ t.stage = s.stage ∧ t.engine = s.engine ∧
        t.pair = s.pair ∧ (∀ f ∈ fs, f.acc = .rw → t.rd f = s.rd f) ∧ t.rd F.HP_DISCAP.CAUSE = 6 ∧
        t.rd F.HP_ERR.DISC = min (s.rd F.HP_ERR.DISC + 1) (F.HP_ERR.DISC.size - 1))

/-- RC_READ of a register of the device, of a block or of a cell that is powered: the read data is the register's
value, its rc fields fall to their reset values, but for what the device adds in the same clk, and SYS_TEMP.PEAK falls
to the present reading; nothing else changes (R11, R12, R418, Table 17-10d). TIME_LO_READ answers bits [35:0] of
device time and latches bits [53:36] into TK_TIME_HI (R57). `s` is the state in the presentation clk (R418). -/
def Obligations.RegisterReads : Prop :=
  ∀ h : State, h.hostOn = true →
    (∀ (a : HostAddr) (r : Reg),
      let s := h.hostSlot a.toNat
      (targetOf a.toNat = .reg r ∨ (∃ b, targetOf a.toNat = .blockReg b r ∧ s.blockOn b = true) ∨
        ∃ c, targetOf a.toNat = .cellReg c r ∧ s.blockOn (c / 9) = true) →
      (r.map Field.key).Nodup → a.toNat ≠ 0x100A → (∀ f ∈ r, f.addr < 0x90801 ∨ 0x90805 ≤ f.addr) →
      ∃ t, exec (.rcRead a) h = .next t ∧ t.hostOut = BitVec.ofNat 36 (s.targetView (targetOf a.toNat)) ∧
        (∀ f ∈ r, f.acc = .rc → t.rd f = (match s.recordedNow f with
          | some (_, n) => min n (f.size - 1)
          | none => f.reset) % f.size) ∧
        s.keepsRegs ((r.filter (·.acc == .rc)).map Field.key) t ∧
        t = { s with regs := t.regs, hostOut := t.hostOut, hostPar := t.hostPar }) ∧
    (∀ i : Fin 4,
      let s := h.hostSlot (0x90801 + i)
      ∃ t, exec (.rcRead (BitVec.ofNat 20 (0x90801 + i))) h = .next t ∧
        t.hostOut = BitVec.ofNat 36 (s.regView (R.SYS_TEMP i)) ∧
        t.rd (F.SYS_TEMP.PEAK i) = s.rd (F.SYS_TEMP.TEMP i) % 2 ^ 12 ∧ s.keepsRegs [(F.SYS_TEMP.PEAK i).key] t ∧
        t = { s with regs := t.regs, hostOut := t.hostOut, hostPar := t.hostPar }) ∧
    (let s := h.hostSlot 0x100A;
      ∃ t, exec .timeLoRead h = .next t ∧ t.hostOut.toNat = s.now % 2 ^ 36 ∧
        t.rd F.TK_TIME_HI.TIME_HI = s.now / 2 ^ 36 ∧ s.keepsRegs [F.TK_TIME_HI.TIME_HI.key] t ∧
        t = { s with regs := t.regs, hostOut := t.hostOut, hostPar := t.hostPar })

/-- The actions that the host starts by a register bit: SYS_FAULT_CLEAR clears CHIP and its ineligibility cause,
unless the device sets CHIP in the same clk; REACQ returns the tick unit to its source; ERRCTRL_RELEASE and
PORT_RECOVER release a cell that waits in BUS_OFF, which begins to count in the next clk with event 0x05; RETRY allows
one attempt under HOLD; RSREQ asks for a resynchronization; FLUSH empties a bulk queue (R12, R158, R165, R233, R379,
R431, Table 2-7). `h` is the state before the access and `s` that in its presentation clk (R418). The packet of
PORT_RECOVER is pushed, popped and started in one step (log entry 6). -/
def Obligations.HostActions : Prop :=
  (∀ h : State, h.hostOn = true →
    (let s := h.hostSlot F.SYS_FAULT.CHIP.addr;
      (s.recordedNow F.SYS_FAULT.CHIP = none →
        ∃ t, exec .sysFaultClear h = .next t ∧ t.flag F.SYS_FAULT.CHIP = false ∧ 0 ∉ t.pair.causes ∧
          (0 ∉ s.pair.causes → s.keepsRegs [F.SYS_FAULT.CHIP.key] t ∧ t = { s with regs := t.regs })) ∧
      ((s.recordedNow F.SYS_FAULT.CHIP).isSome = true → exec .sysFaultClear h = .next s)) ∧
    (let s := h.hostSlot F.TK_CTRL.REACQ.addr;
      ∃ t, exec .reacq h = .next t ∧ t.flag F.TK_STATUS.FALLBACK = false ∧ s.postsEvent 0x02 0x04 0 t ∧
        (s.rd F.TK_SRC.SRC ≠ 0 → t.rd F.TK_STATUS.STATE = 1) ∧
        (s.rd F.TK_SRC.SRC = 0 → s.isStandby = false → t.rd F.TK_STATUS.STATE = 0)) ∧
    (∀ c : CellId,
      let s := h.hostSlot (F.CL_ERRCTRL.RELEASE c).addr
      s.blockOn (c.val / 9) = true → s.awaitsRelease c = true →
      ∃ t, exec (.errctrlRelease c) h = .next t ∧ (t.cell c).countAt = some (s.clk + 1) ∧ s.postsEvent 0x04 0x05 c t) ∧
    (∀ (c : CellId) (n : Nat),
      let s := h.hostSlot (F.CL_ERRCTRL.RETRY c).addr
      s.blockOn (c.val / 9) = true → s.servedPort c = some n →
      s.flag (F.CL_STATUS.ALONE c) = true → s.rd (F.CL_ERRCTRL.PACE (State.home n)) = 2 →
      ∃ t, exec (.retry c) h = .next t ∧ t.flag (F.CL_ERRCTRL.RETRY c) = true ∧
        (s.isStandby = false → s.locked = false →
          s.keepsRegs [(F.CL_ERRCTRL.RETRY c).key, F.CE_JLOG.NEXT.key, F.CE_JLOG.TOTAL.key] t)) ∧
    (let s := h.hostSlot F.SP_PAIR.RSREQ.addr;
      s.linkUp = true → s.flag F.SP_PSTAT.RESYNC = false → s.rd F.SP_PSTAT.ROLE ≠ 0 →
      ∃ t, exec .rsreq h = .next t ∧ t.flag F.SP_PAIR.RSREQ = true ∧ t.pair.resyncWait = true) ∧
    (∀ n : Fin 4,
      let s := h.hostSlot (F.QCTL.FLUSH (0x200 + n)).addr
      ∃ t, exec (.flush n) h = .next t ∧ (t.queue (0x200 + n)).vis = [] ∧
        (t.queue (0x200 + n)).opened = [] ∧ s.keepsQueues [0x200 + n.val] t ∧ t.blockRam = s.blockRam)) ∧
  (∀ (p : Packet) (s : State), s.starts cmdPortRecover p = true →
    let c := s.servingCell (Operand.port (Operand.args p))
    s.awaitsRelease c = true →
    ∃ t, exec (.portRecover p) s = .next t ∧ s.answered cmdPortRecover p 0x00 [] t ∧
      (t.cell c).countAt = some (s.clk + 1) ∧ s.postsEvent 0x04 0x05 c t)

/-- The queue ports. QDATA_POP answers the first visible word of a queue whose consumer the host is, and removes it,
or the idle item where none is visible (R226); what the pop finds of the word's check bits shows in the answer, and is
counted or reported (R230). QDATA_PUSH adds a word to the open packet, or with END closes a packet of its class's
length, which becomes visible, and with ABORT rewinds it; QPUSH2 adds two words (R218, R222, R224). `s` is the state
in the presentation clk (R418), and `u` that with what has come about in the queue before it. After a pop the engine,
which may have waited for credit of the reply queue, goes on in the same step (log entry 22, DEDUCED). -/
def Obligations.QueuePorts : Prop :=
  ∀ (q : BitVec 10) (d : Dword) (h : State), h.hostOn = true → queueExists q.toNat = true →
    let w : QWord := ⟨wordOf (bitsOf d.toNat 17 0), bitOf d.toNat 18, none⟩
    (let s := h.hostSlot (queueBase q.toNat);
      let u := s.settle q.toNat
      (∀ x rest, s.hostConsumes q.toNat = true → (u.queue q.toNat).vis = x :: rest → x.bad = none →
        (∃ t : State, exec (.qdataPop ⟨q, .clean⟩) h = .next t.goOn ∧ (t.queue q.toNat).vis = rest ∧
          t.hostOut = BitVec.ofNat 36 (State.popDword q.toNat x false false) ∧ s.keepsQueues [q.toNat] t) ∧
        (∃ t : State, exec (.qdataPop ⟨q, .corrected⟩) h = .next t.goOn ∧ (t.queue q.toNat).vis = rest ∧
          t.hostOut = BitVec.ofNat 36 (State.popDword q.toNat x true false) ∧
          t.rd (F.QMON.CORR q.toNat) = min (s.rd (F.QMON.CORR q.toNat) + 1) ((F.QMON.CORR q.toNat).size - 1)) ∧
        (∃ t : State, exec (.qdataPop ⟨q, .uncorrectable⟩) h = .next t.goOn ∧ (t.queue q.toNat).vis = rest ∧
          t.hostOut = BitVec.ofNat 36 (State.popDword q.toNat x false true) ∧ s.postsEvent 0x07 0x04 q.toNat t ∧
          t.rd F.HP_ERR.UNCORR = min (s.rd F.HP_ERR.UNCORR + 1) (F.HP_ERR.UNCORR.size - 1))) ∧
      (∀ found, s.hostConsumes q.toNat = true → (u.queue q.toNat).vis = [] →
        ∃ t : State, exec (.qdataPop ⟨q, found⟩) h = .next t.goOn ∧ t.hostOut = BitVec.ofNat 36 (2 ^ 19 + 0x3FFFF) ∧
          t.queues = s.queues) ∧
      (s.hostProduces q.toNat = true → (s.queue q.toNat).discarding = false → (s.queue q.toNat).coming = [] →
        s.credit q.toNat ≠ 0 → (s.queue q.toNat).opened.length < State.Queue.maximum q.toNat → bitOf d.toNat 19 = false →
        let o := (s.queue q.toNat).opened ++ [w]
        (bitOf d.toNat 18 = false →
          ∃ t, exec (.qdataPush q d) h = .next t ∧ (t.queue q.toNat).opened = o ∧
            (t.queue q.toNat).vis = (s.queue q.toNat).vis ∧ s.keepsQueues [q.toNat] t ∧ t.regs = s.regs) ∧
        (bitOf d.toNat 18 = true → o.length = State.Queue.wanted q.toNat (o.headD ⟨0, false, none⟩).word.toNat →
          ∃ t, exec (.qdataPush q d) h = .next t ∧ (t.queue q.toNat).vis = (s.queue q.toNat).vis ++ o ∧
            (t.queue q.toNat).opened = [] ∧ s.keepsQueues [q.toNat] t)) ∧
      (s.hostProduces q.toNat = true → bitOf d.toNat 19 = true → (s.queue q.toNat).opened ≠ [] →
        ∃ t, exec (.qdataPush q d) h = .next t ∧ (t.queue q.toNat).opened = [] ∧
          (t.queue q.toNat).vis = (s.queue q.toNat).vis ∧ s.postsEvent 0x07 0x03 q.toNat t)) ∧
    (let s := h.hostSlot (queueBase q.toNat + 1);
      s.hostProduces q.toNat = true → (s.queue q.toNat).discarding = false → 2 ≤ s.credit q.toNat →
      (s.queue q.toNat).opened.length + 1 < State.Queue.maximum q.toNat →
      ∃ t, exec (.qpush2 q d) h = .next t ∧ (t.queue q.toNat).opened = (s.queue q.toNat).opened ++
          [⟨wordOf (bitsOf d.toNat 17 0), false, none⟩, ⟨wordOf (bitsOf d.toNat 35 18), false, none⟩] ∧
        s.keepsQueues [q.toNat] t ∧ t.regs = s.regs)

/-- The memory windows. A write of the emit window joins the host-write list, or in the boundary clk the one that
begins there, and leaves the emit half as it is; one that would be the 65th entry is discarded and counted (R241,
R242). A write of the knot window, or of block RAM above the status pairs and outside every queue area, writes both
words of its dword and no other (R177, R244). The active device of a pair forwards each (R373). `s` is the state in
the presentation clk (R418). -/
def Obligations.MemoryWindows : Prop :=
  ∀ (d : Dword) (h : State), h.hostOn = true →
    let item (s : State) (a : Nat) : StreamItem :=
      .hostWrite (BitVec.ofNat 20 a) d (BitVec.ofNat 36 (s.tickNo + 1 + b2n s.boundaryHere))
    (∀ i : BitVec 15,
      let s := h.hostSlot (0x58000 + i.toNat)
      let l := if s.boundaryHere then s.gateway.late else s.gateway.collecting
      s.isStandby = false → s.rd F.GW_HWCTRL.WE ≠ 0 →
      (l.length < 64 ∨ (∃ e ∈ l, e.index = i.toNat) →
        ∃ t, exec (.emitWindowWrite i d) h = .next t ∧
          (let l' := State.joinList i.toNat (s.rd F.GW_HWCTRL.WE) d l;
            t.gateway = if s.boundaryHere then { s.gateway with late := l' } else { s.gateway with collecting := l' }) ∧
          s.forwards (item s (0x58000 + i.toNat)) t ∧ t = { s with gateway := t.gateway, pair := t.pair }) ∧
      (64 ≤ l.length → (∀ e ∈ l, e.index ≠ i.toNat) →
        ∃ t, exec (.emitWindowWrite i d) h = .next t ∧ t.gateway = s.gateway ∧ t.emit = s.emit ∧
          t.rd F.GW_HWSTAT.DISC = min (s.rd F.GW_HWSTAT.DISC + 1) (F.GW_HWSTAT.DISC.size - 1))) ∧
    (∀ i : BitVec 17,
      let s := h.hostSlot (0x60000 + i.toNat)
      s.isStandby = false →
      ∃ t, exec (.knotWindowWrite i d) h = .next t ∧
        Sparse.get 0 t.knots (2 * i.toNat) = d.lo ∧ Sparse.get 0 t.knots (2 * i.toNat + 1) = d.hi ∧
        (∀ x, x ≠ 2 * i.toNat → x ≠ 2 * i.toNat + 1 → Sparse.get 0 t.knots x = Sparse.get 0 s.knots x) ∧
        s.forwards (item s (0x60000 + i.toNat)) t ∧ t = { s with knots := t.knots, wear := t.wear, pair := t.pair }) ∧
    (∀ (b : BlockId) (i : BitVec 14),
      let s := h.hostSlot (0x20000 + b * 0x4000 + i.toNat)
      s.isStandby = false → 0x1200 ≤ i.toNat → s.blockOn b = true → s.queueAtRam b (2 * i.toNat) = none →
      ∃ t, exec (.blockRamWrite b i d) h = .next t ∧ t.ram b (2 * i.toNat) = d.lo ∧
        t.ram b (2 * i.toNat + 1) = d.hi ∧
        s.keepsRam (fun b' x => b' = b.val ∧ (x = 2 * i.toNat ∨ x = 2 * i.toNat + 1)) t ∧
        s.forwards (item s (0x20000 + b * 0x4000 + i.toNat)) t ∧
        t = { s with blockRam := t.blockRam, wear := t.wear, pair := t.pair })

/-- Status pairs and releases. STATUS_PAIR_HOLD stores HOLD in S1, and S1_RELEASE also makes a transmit buffer pending
(R193, R200, Table 7-5); while the rewrite of the buffer's status pair is to come, a HOLD is lost (R184); the active
device of a pair forwards the write (R373). BUFFER_RELEASE makes it pending too, and answers 0x09 for a buffer that
does not transmit (R402); `u` is the state in which its effect comes, after the wakes that a sleep entry has held are
decided (R334, log entry 119), and its packet is pushed, popped and started in one step (log entry 6). PW_HOLD_WRITE
sets HOLD, which wakes a port that is asleep (R322). `h` is the state before a host access and `s` that in its
presentation clk (R418). -/
def Obligations.HoldsAndReleases : Prop :=
  (∀ (n : PortId) (d : BufId) (hold : Bool) (h : State), h.hostOn = true →
    (let s := h.hostSlot (statusAddr n d);
      s.isStandby = false → s.blockOn (n.val / 8) = true →
      (s.rewriting n d = true →
        ∃ t, exec (.statusPairHold n d hold) h = .next t ∧ t.blockRam = s.blockRam ∧ t.regs = s.regs) ∧
      (s.rewriting n d = false →
        ∃ t, exec (.statusPairHold n d hold) h = .next t ∧ t.held n d = hold ∧
          s.keepsRam (fun b i => b = n.val / 8 ∧ (i = State.s0Word n d ∨ i = State.s0Word n d + 1)) t ∧ t.regs = s.regs ∧
          s.forwards (.hostWrite (BitVec.ofNat 20 (statusAddr n d)) (BitVec.ofNat 36 (pack [(b2n hold, 35)]))
            (BitVec.ofNat 36 (s.tickNo + 1 + b2n s.boundaryHere))) t) ∧
      ((s.desc n d).isTx = true → s.asleep n = false → s.suspended n d = false →
        ∃ t, exec (.s1Release n d hold) h = .next t ∧ d.val ∈ (t.port n).pend ∧
          (s.rewriting n d = false → t.held n d = hold))) ∧
    (let s := h.hostSlot (F.PW_PCFG.HOLD n).addr;
      s.isStandby = false →
      (s.portState n = 1 → (s.port n).waking = none →
        ∃ t, exec (.pwHoldWrite n hold) h = .next t ∧ t.flag (F.PW_PCFG.HOLD n) = hold ∧
          (s.locked = false → s.keepsRegs [(F.PW_PCFG.HOLD n).key, F.CE_JLOG.NEXT.key, F.CE_JLOG.TOTAL.key] t)) ∧
      (s.asleep n = true → (s.port n).waking = none → ((s.port n).roundSlept = true → (s.port n).sleptAt ≠ s.clk) →
        s.flag (F.PW_PCFG.HOLD n) = false →
        ∃ t, exec (.pwHoldWrite n true) h = .next t ∧ t.portState n = s.wakeState n % 8 ∧
          t.flag (F.PW_PCFG.HOLD n) = true))) ∧
  (∀ (p : Packet) (s : State), s.starts cmdBufferRelease p = true →
    let n := Operand.port (Operand.args p)
    let d := Operand.item (Operand.args p)
    let u := (s.begun cmdBufferRelease p).rewakes
    ((s.desc n d).isTx = true → u.asleep n = false → u.suspended n d = false →
      ∃ t, exec (.bufferRelease p) s = .next t ∧ s.answered cmdBufferRelease p 0x00 [] t ∧ d ∈ (t.port n).pend ∧
        t.blockRam = u.blockRam) ∧
    ((s.desc n d).isTx = false →
      ∃ t, exec (.bufferRelease p) s = .next t ∧ s.answered cmdBufferRelease p 0x09 [] t ∧ t.ports = s.ports))

/-- The release of a hold (R193): a host write that changes HOLD from 1 to 0 swaps the copies within the access where
SHNEW = 1 and SHBUSY = 0: ALT := not ALT and SHNEW := 0. Where SHBUSY = 1, the access swaps nothing, and the close of
the store in progress does. Where both are 0, only HOLD changes. `h` is the state before a host access and `s` that in
its presentation clk (R418); `r` is the state in which the close comes. -/
def Obligations.HoldRelease : Prop :=
  (∀ (n : PortId) (d : BufId) (row : Instr) (h : State), h.hostOn = true →
    let s := h.hostSlot (statusAddr n d)
    s.isStandby = false → s.blockOn (n.val / 8) = true → s.rewriting n d = false → (s.desc n d).isRx = true →
    s.held n d = true → (row = .statusPairHold n d false ∨ row = .s1Release n d false) →
    ∃ t, exec row h = .next t ∧ t.held n d = false ∧
      s.keepsRam (fun b i => b = n.val / 8 ∧ (i = State.s0Word n d ∨ i = State.s0Word n d + 1)) t ∧
      (s.shnew n d = true → s.xbusy n d = false → t.alt n d = !s.alt n d ∧ t.shnew n d = false) ∧
      (s.xbusy n d = true → t.s0 n d = s.s0 n d) ∧
      (s.shnew n d = false → s.xbusy n d = false →
        s.keepsRam (fun b i => b = n.val / 8 ∧ i = State.s0Word n d + 1) t ∧ t.regs = s.regs)) ∧
  (∀ (c : CellId) (n : Nat) (r : State) (o : OpenStore), r.power.phase = .ready → r.servedPort c = some n →
    (r.cell c).store = some o → o.stale = false → o.shadow = true → o.buf < 128 → 0x2400 ≤ o.base →
    o.base + o.record.length ≤ 32768 → (r.portATurn c).held n o.buf = false →
    ∃ t, exec (.receiveStore c .close) r = .next t ∧ t.shnew n o.buf = false ∧
      t.alt n o.buf = !(r.portATurn c).alt n o.buf)

/-- Accesses that fail. Under PCHK = 1 a write with a parity error lands nowhere, is counted and captured, and is
reported by event 0x01 where none has been in this tick; one to a queue port also rewinds the packet that the host has
open there (R424); a read of an address outside the map answers 0 and is counted as void, a write there is discarded
(R426, R427, R436); a read of an uncorrectable word of the image is counted and captured, and under POISON its parity
bit is inverted (R362, R425; how it shows is log entry 79, DEDUCED). `s` is the state in the presentation clk (R418).
-/
def Obligations.HostErrors : Prop :=
  ∀ (a : HostAddr) (d : Dword) (h : State), h.hostOn = true →
    let s := h.hostSlot a.toNat
    (s.flag F.HP_CTRL.PCHK = true → (∀ q, (targetOf a.toNat = .qData q ∨ targetOf a.toNat = .qPush2 q) → (s.queue q).opened = []) →
      ∃ t, exec (.parityErrorWrite a d) h = .next t ∧ t.rd F.HP_DISCAP.CAUSE = 1 ∧ t.rd F.HP_DISCAP.RD = 0 ∧ t.rd F.HP_DISCAP.ADDR = a.toNat ∧
        t.rd F.HP_ERR.PARERR = min (s.rd F.HP_ERR.PARERR + 1) (F.HP_ERR.PARERR.size - 1) ∧
        (0xF010000 ∉ s.once → s.postsEvent 0x0F 0x01 0 t) ∧
        s.keepsRegs [F.HP_ERR.PARERR.key, F.HP_DISCAP.CAUSE.key, F.HP_DISCAP.RD.key, F.HP_DISCAP.ADDR.key] t ∧
        t = { s with regs := t.regs, recorded := t.recorded, merger := t.merger, once := t.once }) ∧
    (∀ q, s.flag F.HP_CTRL.PCHK = true → (targetOf a.toNat = .qData q ∨ targetOf a.toNat = .qPush2 q) →
      queueExists q = true → s.hostProduces q = true → (s.queue q).opened ≠ [] →
      ∃ t, exec (.parityErrorWrite a d) h = .next t ∧ (t.queue q).opened = [] ∧ (t.queue q).vis = (s.queue q).vis ∧
        t.engine.journal = s.engine.journal ∧ s.keepsQueues [q] t ∧ t.rd F.HP_DISCAP.CAUSE = 1 ∧ t.rd F.HP_DISCAP.RD = 0 ∧ t.rd F.HP_DISCAP.ADDR = a.toNat ∧
        t.rd F.HP_ERR.PARERR = min (s.rd F.HP_ERR.PARERR + 1) (F.HP_ERR.PARERR.size - 1) ∧
        s.postsEvent 0x07 0x03 q t ∧ (0xF010000 ∉ s.once → s.postsEvent 0x0F 0x01 0 t)) ∧
    (targetOf a.toNat = .unmapped →
      (∃ t, exec (.discardedAccess a true d) h = .next t ∧ t.hostOut = 0 ∧ t.rd F.HP_DISCAP.CAUSE = 7 ∧
        t.rd F.HP_ERR.VOID = min (s.rd F.HP_ERR.VOID + 1) (F.HP_ERR.VOID.size - 1) ∧
        t = { s with regs := t.regs, recorded := t.recorded, merger := t.merger, once := t.once, hostOut := t.hostOut, hostPar := t.hostPar }) ∧
      (∃ t, exec (.discardedAccess a false d) h = .next t ∧ t.rd F.HP_DISCAP.CAUSE = 7 ∧
        t.rd F.HP_ERR.DISC = min (s.rd F.HP_ERR.DISC + 1) (F.HP_ERR.DISC.size - 1) ∧
        t = { s with regs := t.regs, recorded := t.recorded, merger := t.merger, once := t.once })) ∧
    (∀ (i : Nat) (words : BitVec 2), targetOf a.toNat = .captured i → words ≠ 0 →
      s.isBad .captured (2 * i) = false → s.isBad .captured (2 * i + 1) = false →
      ∃ t, exec (.uncorrectableRead a words) h = .next t ∧ t.rd F.HP_UCAP.WORDS = words.toNat ∧
        t.rd F.HP_UCAP.ADDR = a.toNat ∧ t.captured = s.captured ∧
        t.hostOut = BitVec.ofNat 36 (State.pairView (s.capWord (2 * i)).toNat (s.capWord (2 * i + 1)).toNat) ∧
        t.rd F.HP_ERR.UNCORR = min (s.rd F.HP_ERR.UNCORR + 1) (F.HP_ERR.UNCORR.size - 1) ∧
        t.hostPar.getLsbD 0 = (State.oddParity (s.capWord (2 * i)) !=
          (words.getLsbD 0 && s.flag F.HP_CTRL.POISON)))

/-! ### Resets, start-up, telemetry and the test access port (chapters 17 and 18) -/

/-- Every reset holds the device in reset with its registers, queues and memories at their reset contents, keeps the
OTP records, the live list they fill and the test access port, and sets its own bit of SYS_RSTCAUSE; power-on reset
and brownout clear the other bits, the other resets keep them (R366, R447, R448, Table 17-3). VCORE is out of range in
a power-on reset until its release (R442); whether it is in a brownout is a free value (log entry 118). -/
def Obligations.Resets : Prop :=
  ∀ s : State,
    let left (own : Field) (keep : Bool) (t : State) : Prop :=
      t = { State.reset with pending := s.pending, free := t.free, regs := t.regs, wear := t.wear, power := t.power } ∧
      t.power = { vcoreIn := t.power.vcoreIn, tap := s.power.tap, tapData := s.power.tapData, scan := s.power.scan } ∧
      t.power.phase = .inReset ∧ t.rd own = 1 ∧ t.wear.live = t.wear.otp.filterMap id ∧
      (s.wear.programming = none → t.wear.otp = s.wear.otp) ∧
      (∀ f ∈ State.causeBits, f.key ≠ own.key → t.rd f = if keep then s.rd f % f.size else 0) ∧
      State.reset.keepsRegs (State.causeBits.map Field.key ++ [F.SP_LEDGER.LIVE.key, F.SP_LEDGER.OTP.key]) t
    (∃ t, exec .powerOnReset s = .next t ∧ left F.SYS_RSTCAUSE.POR false t ∧ t.free = s.free ∧
      t.power.vcoreIn = false) ∧
    (∃ t, exec .brownout s = .next t ∧ left F.SYS_RSTCAUSE.BROWNOUT false t ∧
      (s.power.vcoreIn = false → t.power.vcoreIn = false)) ∧
    (∃ t, exec .pinReset s = .next t ∧ left F.SYS_RSTCAUSE.PIN true t ∧ t.free = s.free ∧
      t.power.vcoreIn = s.power.vcoreIn) ∧
    (∃ t, exec .clockFaultReset s = .next t ∧ left F.SYS_RSTCAUSE.CLOCK true t ∧ t.free = s.free ∧
      t.power.vcoreIn = s.power.vcoreIn) ∧
    (∃ t, exec .thermalReset s = .next t ∧ left F.SYS_RSTCAUSE.THERMAL true t ∧ t.free = s.free ∧
      t.power.vcoreIn = s.power.vcoreIn)

/-- RESET_RELEASE samples the straps and starts the device up, or leaves it in the board test with BOOTSEL 0b11;
MAIN_PLL_LOCK_TIMEOUT restarts the PLL; READY starts tick 0 with every port in the state that PORTSTART selects (R41,
R320, R449 to R451, Table 17-5). The instructions of the test access port: IDCODE reads 0x1961_2DCB, EXTEST takes the
pins, which in a READY device are lost to it until the host resets it, and SAMPLE/PRELOAD and EXTEST capture the pins;
none touches a register or a memory of the device (R448, R467, R476). What BYPASS captures and that the port's reset
selects IDCODE is IEEE 1149.1's (log entry 30); what stands on the pins and what the tester shifts in are free values
(log entry 118). -/
def Obligations.StartUpAndTestPort : Prop :=
  (∀ s : State,
    (∀ senior portStart bootsel, s.power.phase = .inReset →
      ∃ t, exec (.resetRelease senior portStart bootsel) s = .next t ∧ t.flag F.SYS_STRAP.SENIOR = senior ∧
        t.flag F.SP_PSTAT.SENIOR = senior ∧ t.flag F.SYS_STRAP.PORTSTART = portStart ∧
        t.rd F.SYS_STRAP.BOOTSEL = bootsel.toNat ∧ t.power.vcoreIn = true ∧
        t.power.phase = (if bootsel = 3 then .boardTest else .starting)) ∧
    (s.power.phase = .starting →
      ∃ t, exec .mainPllLockTimeout s = .next t ∧ t.power.pllRestarts = s.power.pllRestarts + 1 ∧
        t.power.phase = .starting ∧ t.regs = s.regs) ∧
    (∀ lockUs failing, s.power.phase = .starting →
      ∃ t, exec (.ready lockUs failing) s = .next t ∧ t.power.phase = .ready ∧ t.tick = {} ∧ t.phase = 0 ∧
        t.rd F.SYS_PLLSTAT.LOCKUS = lockUs.toNat ∧
        ∀ n, n < 96 → t.portState n = if s.flag F.SYS_STRAP.PORTSTART then 1 else 4)) ∧
  (∀ s : State,
    (∃ t, exec .tapBypass s = .next t ∧ t = { s with power := { s.power with tap := .bypass, tapData := 0 } }) ∧
    (∃ t, exec .tapSamplePreload s = .next t ∧
      t = { s with free := t.free, power := { s.power with tap := .samplePreload, tapData := t.power.tapData
                                                           scan := t.power.scan } }) ∧
    (∃ t, exec .tapExtest s = .next t ∧ State.pinsTaken t = true ∧ State.hostOn t = false ∧
      t = { s with free := t.free, power := { s.power with tap := .extest, tapData := t.power.tapData
                                                           pinsLost := s.power.pinsLost || s.power.phase == .ready } }) ∧
    (∃ t, exec .tapIdcode s = .next t ∧
      t = { s with power := { s.power with tap := .idcode, tapData := 0x19612DCB } }) ∧
    (∃ t, exec .tapReset s = .next t ∧
      t = { s with power := { s.power with tap := .idcode, tapData := 0x19612DCB } }))

/-- TEMPERATURE_SAMPLE stores its readings and keeps the highest, excludes a sensor that differs from the median by
more than 15 °C, with event 0x06, and resets the device where one that is not excluded trips; VOLTAGE_SAMPLE stores
its readings, and a supply first outside its warning window is reported by event 0x03 and raises the power fault, but
for an absent VSD (log entry 118); TELEMETRY_PACKET begins to push the packet of Table 17-7 into its bound queue, or
drops and counts it, once in a tick whose number is a multiple of PERIOD; LEASE_GRANT counts the lease (R364, R365,
R431, R442, R447, R453 to R455, Table 17-10d). -/
def Obligations.Telemetry : Prop :=
  ∀ s : State, s.power.phase = .ready →
    (∀ t0 t1 t2 t3 : BitVec 12,
      let l := [t0.toNat, t1.toNat, t2.toNat, t3.toNat]
      (State.trips l = true → exec (.temperatureSample t0 t1 t2 t3) s = exec .thermalReset s) ∧
      (State.trips l = false →
        ∃ t, exec (.temperatureSample t0 t1 t2 t3) s = .next t ∧ ∀ i, i < 4 →
          let v := l.getD i 0
          let peak := s.rd (F.SYS_TEMP.PEAK i)
          t.rd (F.SYS_TEMP.TEMP i) = v ∧ t.flag (F.SYS_TEMP.EXCL i) = State.excludes l (signed12 v) ∧
            t.rd (F.SYS_TEMP.PEAK i) = (if s.power.sensed = false ∨ signed12 peak < signed12 v then v else peak) ∧
            (s.flag (F.SYS_TEMP.EXCL i) = false → State.excludes l (signed12 v) = true →
              s.postsEvent 0x0E 0x06 i t ∧ t.flag F.SYS_FAULT.PWR = true))) ∧
    (∀ vcore vsd vaux : BitVec 12, ∃ t, exec (.voltageSample vcore vsd vaux) s = .next t ∧
      t.rd F.SYS_VMON.VCORE = vcore.toNat ∧ t.rd F.SYS_VMON.VSD = vsd.toNat ∧ t.rd F.SYS_VMON.VAUX = vaux.toNat ∧
      t.power.vcoreIn = (decide (825 ≤ vcore.toNat) && decide (vcore.toNat ≤ 875)) ∧
      (s.power.outside = [] → (vcore.toNat < 816 ∨ 884 < vcore.toNat) →
        s.postsEvent 0x0E 0x03 0 t ∧ t.flag F.SYS_FAULT.PWR = true) ∧
      (s.power.outside = [] → vsd ≠ 0 → (vsd.toNat < 940 ∨ 1060 < vsd.toNat) →
        s.postsEvent 0x0E 0x03 1 t ∧ t.flag F.SYS_FAULT.PWR = true) ∧
      (s.power.outside = [] → vsd = 0 → 816 ≤ vcore.toNat → vcore.toNat ≤ 884 → 1690 ≤ vaux.toNat → vaux.toNat ≤ 1910 →
        t.merger = s.merger ∧ t.flag F.SYS_FAULT.PWR = s.flag F.SYS_FAULT.PWR)) ∧
    (s.telemetryDue = true → 0xE050000 ∉ s.once →
      ∃ t, exec .telemetryPacket s = .next t ∧ 0xE050000 ∈ t.once ∧
        (∀ q, s.boundQueue 5 = some q → 106 ≤ s.room q →
          let u := ({ s with once := 0xE050000 :: s.once } : State).settle q
          (t.queue q).vis = (u.queue q).vis ∧ (t.queue q).opened = (u.queue q).opened ∧
          (t.queue q).coming.map (·.2) = (u.queue q).coming.map (·.2) ++
            [packet (pack [(1, 12), (105, 0)] :: (words 2 s.tickNo ++
              (List.range 7).map s.telemetryItem ++ (List.range 96).map fun n => s.telemetryItem (0x10 + n)))]) ∧
        ((s.boundQueue 5 = none ∨ ∃ q, s.boundQueue 5 = some q ∧ s.room q < 106) →
          t.rd F.SYS_TELCFG.DROP = min (s.rd F.SYS_TELCFG.DROP + 1) (F.SYS_TELCFG.DROP.size - 1) ∧
            s.postsEvent 0x0E 0x05 0 t)) ∧
    (∀ u, ∃ t, exec (.leaseGrant u) s = .next t ∧
      let f := match u with
        | .scrub => F.SP_LEASE.SCRUB
        | .wear => F.SP_LEASE.WEAR
        | .telem => F.SP_LEASE.TELEM
        | .aging => F.SP_LEASE.AGING
      t.rd f = min (s.rd f + 1) (f.size - 1) ∧ s.keepsRegs [f.key] t ∧ t = { s with regs := t.regs, recorded := t.recorded })

/-! ### The pair (chapter 13) -/

/-- TETHER_LANE_FAILURE counts the errors found and fails the lane with cause 0x7, whose logical lane moves to the
lane that is neither failed nor in use, or is lost; TETHER_PLL_LOSS fails every lane with cause 0x7, drops the link,
raises the power fault and writes event 0x04; TETHER_PLL_RELOCK trains the lanes again that failed with the PLL (log
entry 64, DEDUCED); TETHER_LINK_UP gives the partners their roles, by which of them has been running (log entry
65, DEDUCED), or keeps the link down where both claim the same seniority; a frame that is sent again shows in CODEERR
alone (R358, R370, R385, R445, Table 13-1). -/
def Obligations.Tether : Prop :=
  ∀ s : State, s.power.phase = .ready →
    (∀ (l : Fin 3) errors, s.flag F.SP_PAIR.EN = true → s.laneFailed l = false → s.rd F.SP_LANE.FAILED < 8 →
      let dest := ((List.range 3).find? fun x => x != l.val && !s.laneFailed x && !s.laneInUse x).getD 3
      ∃ t, exec (.tetherLaneFailure ⟨l, errors⟩) s = .next t ∧ t.laneFailed l = true ∧ s.postsEvent 0x0C 0x0A l t ∧
        Sparse.get 0 t.wear.cause (0x2000 + l) = 7 ∧
        t.rd F.SP_LANE.CODEERR = min (s.rd F.SP_LANE.CODEERR + errors.toNat) 511 ∧
        t.rd F.SP_LANE.PHYA = (if s.rd F.SP_LANE.PHYA = l.val then dest else s.rd F.SP_LANE.PHYA) ∧
        (s.rd F.SP_LANE.PHYA ≠ l.val → s.rd F.SP_LANE.PHYB = l.val → t.rd F.SP_LANE.PHYB = dest)) ∧
    (s.flag F.SYS_PLLSTAT.TRUN = true → s.rd F.SP_LANE.FAILED < 8 →
      ∃ t, exec .tetherPllLoss s = .next t ∧ t.flag F.SYS_PLLSTAT.TLOCK = false ∧ t.rd F.SP_PSTAT.LINK = 0 ∧
        t.flag F.SYS_FAULT.PWR = true ∧ s.postsEvent 0x0E 0x04 0 t ∧ 2 ∈ t.pair.causes ∧
        ∀ l, l < 3 → t.laneFailed l = true ∧ (l ∈ t.wear.pllLanes ↔ s.laneFailed l = false) ∧
          (s.laneFailed l = false → Sparse.get 0 t.wear.cause (0x2000 + l) = 7 ∧ s.postsEvent 0x0C 0x0A l t)) ∧
    (s.flag F.SYS_PLLSTAT.TRUN = true → s.flag F.SYS_PLLSTAT.TLOCK = false → s.rd F.SP_LANE.FAILED < 8 →
      (∀ l ∈ s.wear.pllLanes, l < 3) →
      ∃ t, exec .tetherPllRelock s = .next t ∧ t.flag F.SYS_PLLSTAT.TLOCK = true ∧
        t.rd F.SP_PSTAT.LINK = max 1 (s.rd F.SP_PSTAT.LINK) % 4 ∧ t.wear.pllLanes = [] ∧
        (∀ l, l < 3 → t.laneFailed l = (s.laneFailed l && !s.wear.pllLanes.contains l)) ∧
        (∀ l rest, s.wear.pllLanes = l :: rest → s.rd F.SP_LANE.PHYA = 3 → t.rd F.SP_LANE.PHYA = l)) ∧
    (∀ ps ran delay, s.flag F.SP_PAIR.EN = true → s.linkUp = false →
      (s.flag F.SP_PSTAT.SENIOR = ps →
        ∃ t, exec (.tetherLinkUp ps ran delay) s = .next t ∧ t.rd F.SP_PSTAT.LINK = 1 ∧ s.postsEvent 0x0D 0x06 0 t) ∧
      (s.flag F.SP_PSTAT.SENIOR ≠ ps →
        let active := if s.running = ran then s.flag F.SP_PSTAT.SENIOR else s.running
        (s.rd F.SP_PSTAT.ROLE ≠ 1 ∨ active = true →
          ∃ t, exec (.tetherLinkUp ps ran delay) s = .next t ∧ t.linkUp = true ∧ t.rd F.SP_TDLY.DELAY = delay.toNat ∧
            t.rd F.SP_PSTAT.ROLE = if active then 1 else 2) ∧
        (s.rd F.SP_PSTAT.ROLE = 1 → active = false →
          ∃ t, exec (.tetherLinkUp ps ran delay) s = .next t ∧ t.linkUp = true ∧ t.rd F.SP_PSTAT.ROLE = 1 ∧
            7 ∈ t.pair.causes ∧ t.pair.switchPending = true ∧ t.pair.alone = true))) ∧
    (∀ frame : Resend,
      (s.flag F.SP_PAIR.EN = false → exec (.tetherFrameResend frame) s = .next s) ∧
      (s.flag F.SP_PAIR.EN = true →
        ∃ t, exec (.tetherFrameResend frame) s = .next t ∧ t = { s with regs := t.regs, recorded := t.recorded } ∧
          s.keepsRegs [F.SP_LANE.CODEERR.key] t ∧
          t.rd F.SP_LANE.CODEERR = min (s.rd F.SP_LANE.CODEERR + frame.errors.toNat) 511))

/-- HEALTH_TRAFFIC updates the partner's eligibility and restarts the loss count; DIGEST_RECEIVED compares the digest
with that of the oldest tick for which one is awaited: a void one is counted, an equal one lengthens the run of
matches, another one ends it and makes the standby ineligible with cause 0x1 and event 0x02; one that comes before its
own waits for it (log entry 102, DESIGN CHOICE); DIGEST_MISSING counts; HEALTH_LOSS takes the link down on either side
(log entry 65, DEDUCED), with event 0x05 on a standby, and an eligible standby with AUTO takes over (R376, R377,
R382). -/
def Obligations.HealthAndDigest : Prop :=
  ∀ s : State, s.power.phase = .ready →
    (s.linkUp = true →
      (∀ h, ∃ t, exec (.healthTraffic h) s = .next t ∧ t.flag F.SP_PSTAT.PELIG = h.elig ∧ t.pair.healthSeen = true ∧
        t.pair.healthMissed = 0) ∧
      (∀ digest void tick own ownVoid rest, s.isStandby = true → s.pair.awaited = (tick, own, ownVoid) :: rest →
        (void = true ∨ ownVoid = true →
          ∃ t, exec (.digestReceived digest void) s = .next t ∧ t.pair.awaited = rest ∧
            t.rd F.SP_DIGCNT.VOID = min (s.rd F.SP_DIGCNT.VOID + 1) (F.SP_DIGCNT.VOID.size - 1)) ∧
        (void = false → ownVoid = false → own = digest.toNat →
          ∃ t, exec (.digestReceived digest void) s = .next t ∧ t.pair.awaited = rest ∧
            t.rd F.SP_PSTAT.MATCHRUN = min (s.rd F.SP_PSTAT.MATCHRUN + 1) (F.SP_PSTAT.MATCHRUN.size - 1)) ∧
        (void = false → ownVoid = false → own ≠ digest.toNat →
          ∃ t, exec (.digestReceived digest void) s = .next t ∧ t.pair.awaited = rest ∧ t.rd F.SP_PSTAT.MATCHRUN = 0 ∧
            1 ∈ t.pair.causes ∧ s.postsEvent 0x0D 0x02 0 t)) ∧
      (∀ digest void, s.isStandby = true → s.pair.awaited = [] → s.pair.missTick ≠ some s.tickNo →
        ∃ t, exec (.digestReceived digest void) s = .next t ∧ t.pair.early = s.pair.early ++ [(digest.toNat, void)] ∧
          t = { s with pair := t.pair }) ∧
      (∀ tick own ownVoid rest, s.isStandby = true → s.pair.awaited = (tick, own, ownVoid) :: rest → tick ≠ s.tickNo →
        ∃ t, exec .digestMissing s = .next t ∧ t.pair.awaited = rest ∧ t.pair.missTick = some s.tickNo ∧
          t.rd F.SP_DIGCNT.MISSING = min (s.rd F.SP_DIGCNT.MISSING + 1) (F.SP_DIGCNT.MISSING.size - 1))) ∧
    (s.rd F.SP_PSTAT.ROLE ≠ 0 → s.pair.lost = false → s.rd F.SP_PAIR.HLOSS ≤ s.pair.healthMissed →
      ∃ t, exec .healthLoss s = .next t ∧ t.rd F.SP_PSTAT.LINK = 0 ∧ 2 ∈ t.pair.causes ∧ t.pair.lost = true ∧
        (s.isStandby = true → s.postsEvent 0x0D 0x05 0 t) ∧
        t.pair.switchPending = (s.isStandby && s.flag F.SP_PAIR.AUTO && s.pair.wasEligible && !s.pair.partnerFrame))

/-- The rows of a resynchronization and of a switchover. CONFIGURATION_TRANSFER_DONE gives every listed word of the
standby's knot and scale tables its transferred value and every other 0, and every listed st field, table entry and
staging copy its transferred value, cut to its width, but for those that are local to a device; a key that only the
standby has set returns to its reset value; on both devices it asks for a resynchronization. RESYNC_START opens one,
on the active device in HOUSE with its emit half as the snapshot; SNAPSHOT_WRITE writes a dword of the emit half in
HOUSE that is neither marked nor written in this tick; SNAPSHOT_COMPLETE reports event 0x04; RESYNC_TIMEOUT asks for
the resynchronization again, and tells the active device. SWITCHOVER of the active device is due at the next boundary
and tells the standby; that of a standby asks the active device (R370, R378, R379, R381, R438). The packet of
SWITCHOVER is pushed, popped and started in one step (log entry 6). -/
def Obligations.Resynchronization : Prop :=
  (∀ s : State, s.power.phase = .ready → s.linkUp = true →
    (∀ regs stage knots scale, s.isStandby = true →
      ∃ t, exec (.configurationTransferDone regs stage knots scale) s = .next t ∧ t.pair.resyncWait = true ∧
        (∀ e ∈ knots, e.1 < 262144 → (∀ x ∈ knots, x.1 = e.1 → x = e) → Sparse.get 0 t.knots e.1 = e.2) ∧
        (∀ k, (∀ e ∈ knots, e.1 ≠ k) → Sparse.get 0 t.knots k = 0) ∧
        (∀ e ∈ scale, e.1 < 12288 → (∀ x ∈ scale, x.1 = e.1 → x = e) → Sparse.get 0 t.scales e.1 = e.2) ∧
        (∀ k, (∀ e ∈ scale, e.1 ≠ k) → Sparse.get 0 t.scales k = 0) ∧
        (∀ e ∈ regs, State.transferred e.1 = true → (∀ x ∈ regs, x.1 = e.1 → x = e) →
          t.rdK e.1 (keyReset e.1) = fitKey e.1 e.2) ∧
        (∀ e ∈ s.regs, State.transferred e.1 = true → (∀ x ∈ regs, x.1 ≠ e.1) →
          t.rdK e.1 (keyReset e.1) = keyReset e.1) ∧
        (∀ e ∈ stage, State.transferred e.1 = true → (∀ x ∈ stage, x.1 = e.1 → x = e) →
          t.stagedK e.1 (keyReset e.1) = fitKey e.1 e.2)) ∧
    (∀ regs stage knots scale, s.rd F.SP_PSTAT.ROLE = 1 →
      exec (.configurationTransferDone regs stage knots scale) s =
        .next { s with pair := { s.pair with resyncWait := true } }) ∧
    (s.isStandby = true → s.pair.resyncWait = true →
      ∃ t, exec .resyncStart s = .next t ∧ t.flag F.SP_PSTAT.RESYNC = true ∧ t.rd F.SP_PSTAT.MATCHRUN = 0 ∧
        t.gateway.marked = [] ∧ t.pair.resyncWait = false ∧ t.pair.snapTicks = none ∧ 6 ∈ t.pair.causes) ∧
    (s.rd F.SP_PSTAT.ROLE = 1 → s.pair.resyncWait = true → s.phase = 3 →
      ∃ t, exec .resyncStart s = .next t ∧ t.flag F.SP_PSTAT.RESYNC = true ∧ t.pair.resyncWait = false ∧
        (s.clk, .snapshot s.emit) ∈ t.pair.out)) ∧
  (∀ s : State, s.power.phase = .ready → s.isStandby = true →
    (∀ (i : BitVec 15) (d : Dword), s.flag F.SP_PSTAT.RESYNC = true → s.phase = 3 → i.toNat ∉ s.gateway.marked →
      i.toNat ∉ s.gateway.wrote →
      ∃ t, exec (.snapshotWrite i d) s = .next t ∧ t.emitWord (2 * i.toNat) = d.lo ∧
        t.emitWord (2 * i.toNat + 1) = d.hi ∧
        (∀ x, x ≠ 2 * i.toNat → x ≠ 2 * i.toNat + 1 → t.emitWord x = s.emitWord x) ∧
        t = { s with emit := t.emit, wear := t.wear }) ∧
    (s.flag F.SP_PSTAT.RESYNC = true → s.pair.snapTicks = none → s.pair.resyncWait = false →
      ∃ t, exec .snapshotComplete s = .next t ∧ t.pair.snapTicks = some 0 ∧ t.rd F.SP_PSTAT.MATCHRUN = 0 ∧
        t.flag F.SP_PAIR.RSREQ = false ∧ t.gateway.marked = [] ∧ s.postsEvent 0x0D 0x04 0 t) ∧
    (∀ n, s.pair.snapTicks = some n → 256 ≤ n →
      ∃ t, exec .resyncTimeout s = .next t ∧ t.pair.resyncWait = true ∧ t.pair.snapTicks = none ∧
        t = { s with pair := t.pair } ∧ (s.linkUp = true → ∃ x ∈ t.pair.out, ∃ r : Health, x.2 = .health r ∧ r.again = true))) ∧
  (∀ (p : Packet) (s : State), s.starts cmdSwitchover p = true → s.linkUp = true →
    let asks (t : State) : Prop := ∃ x ∈ t.pair.out, ∃ r : Health, x.2 = .health r ∧ r.switchReq = true
    (s.rd F.SP_PSTAT.ROLE = 1 → s.flag F.SP_PSTAT.PELIG = true →
      ∃ t, exec (.switchover p) s = .next t ∧ s.handedOff cmdSwitchover p 0 t ∧ t.pair.switchPending = true ∧ asks t) ∧
    (s.isStandby = true → s.flag F.SP_PSTAT.ELIG = true →
      ∃ t, exec (.switchover p) s = .next t ∧ s.handedOff cmdSwitchover p 0 t ∧
        t.pair.switchPending = s.pair.switchPending ∧ asks t))

/-- STREAM_ITEM on a standby. A host write of the emit window that is tagged with the next tick joins the host-write
list, one for a later tick waits for its tick, one for the present tick joins the list that is still open, and a late
one makes the standby ineligible with cause 0x4. Any other host write lands as the active device's did, st fields in
their staging copies, and SYS_SYSADDR and SYS_SCRATCH are left alone. A forwarded command runs as on the active
device, and one that Table 13-8 does not forward is ignored (log entry 77, DEDUCED). A result ends the command that it
belongs to, and one that has come before its command waits for it (R373 to R375, R438). `s` is the state after the
wakes that a sleep entry has held are decided (R334, log entry 119). The packet of a forwarded command is popped and
started in one step (log entry 6). -/
def Obligations.StreamItems : Prop :=
  ∀ r : State, r.power.phase = .ready →
    let s := r.rewakes
    s.linkUp = true → s.isStandby = true →
    (∀ (i : BitVec 15) (d : Dword) (tick : BitVec 36), s.rd F.GW_HWCTRL.WE ≠ 0 →
      let item : Instr := .streamItem (.hostWrite (BitVec.ofNat 20 (0x58000 + i.toNat)) d tick)
      let we := s.rd F.GW_HWCTRL.WE
      (tick.toNat = s.tickNo + 1 → s.gateway.collecting.length < 64 →
        exec item r = .next { s with gateway :=
          { s.gateway with collecting := State.joinList i.toNat we d s.gateway.collecting } }) ∧
      (s.tickNo + 1 < tick.toNat →
        exec item r = .next { s with pair := { s.pair with ahead := s.pair.ahead ++ [(tick.toNat, ⟨i.toNat, we, d⟩)] } }) ∧
      (tick.toNat = s.tickNo → s.pair.listClose = false →
        exec item r = .next { s with gateway :=
          { s.gateway with applying := State.joinList i.toNat we d s.gateway.applying } }) ∧
      (tick.toNat < s.tickNo ∨ (tick.toNat = s.tickNo ∧ s.pair.listClose = true) →
        ∃ t, exec item r = .next t ∧ 4 ∈ t.pair.causes ∧ t.emit = s.emit)) ∧
    (∀ (a : HostAddr) (d : Dword) (tick : BitVec 36),
      let item : Instr := .streamItem (.hostWrite a d tick)
      (a.toNat ≤ 1 → exec item r = .next s) ∧
      (∀ fs : Reg, 2 ≤ a.toNat →
        (targetOf a.toNat = .reg fs ∨ (∃ b, targetOf a.toNat = .blockReg b fs ∧ s.blockOn b = true) ∨
          ∃ c x, targetOf a.toNat = .cellReg c x ∧ s.blockOn (c / 9) = true ∧ fs = x.filterMap (s.pageField c)) →
        (fs.map Field.key).Nodup → s.locked = false →
        (∀ f ∈ fs, 1 ≤ f.width ∧ f.addr < 2 ^ 20 ∧ f.lo < 64 ∧ (f.acc = .st ∨ f.acc = .rw →
          f.key ∉ [F.CE_JLOG.NEXT.key, F.CE_JLOG.TOTAL.key])) →
        (∀ f ∈ fs, f.acc = .rw → 0x4000 ≤ f.addr → f.addr < 0x4600 →
          (∃ n, f = F.PW_PCFG.HOLD n) ∧ (f.of d.toNat = 0 ∨ s.flag f = true)) →
        ∃ t, exec item r = .next t ∧ t.pair = s.pair ∧
          s.keepsRegs ([F.CE_JLOG.NEXT.key, F.CE_JLOG.TOTAL.key] ++ (fs.filter (·.acc == .rw)).map Field.key) t ∧
          (∀ f ∈ fs, f.acc = .rw → t.rd f = if f.legal (f.of d.toNat) then f.of d.toNat else s.rd f) ∧
          ∀ f ∈ fs, f.acc = .st →
            t.staged f = if State.classHas f && f.legal (f.of d.toNat) then f.of d.toNat else s.staged f) ∧
      (∀ i, targetOf a.toNat = .knot i →
        ∃ t, exec item r = .next t ∧ Sparse.get 0 t.knots (2 * i) = d.lo ∧ Sparse.get 0 t.knots (2 * i + 1) = d.hi ∧
          t = { s with knots := t.knots, wear := t.wear }) ∧
      (∀ b i, targetOf a.toNat = .blockRam b i → s.blockOn b = true → 0x1200 ≤ i → s.queueAtRam b (2 * i) = none →
        ∃ t, exec item r = .next t ∧ t.ram b (2 * i) = d.lo ∧ t.ram b (2 * i + 1) = d.hi ∧
          t = { s with blockRam := t.blockRam, wear := t.wear })) ∧
    (∀ (p : Packet) (tick : BitVec 36), s.starts cmdQueueCredit { p with src := .stream } = true →
      ∃ t, exec (.streamItem (.command 0x21 p tick)) r = .next t ∧
        t.rd (F.QCTL.CEIL (qidArg (Operand.args p))) = bitsOf (Operand.word (Operand.args p) 3) 15 0) ∧
    (∀ (op : BitVec 8) (p : Packet) (tick : BitVec 36), p.args.length ≤ 63 → (specOf op.toNat).forwarded = false →
      exec (.streamItem (.command op p tick)) r = .next s) ∧
    (∀ (op : BitVec 8) (seq : BitVec 12) (status : BitVec 6) (rs : List Word), rs.length ≤ 63 →
      let tag := 0x10000 + seq.toNat
      (s.handoff op.toNat tag = none →
        exec (.streamItem (.remoteResult op seq status rs)) r = .next { s with pair := { s.pair with
          results := s.pair.results ++ [(op.toNat, seq.toNat, status.toNat, rs.map (·.toNat))] } }) ∧
      ((s.handoff op.toNat tag).isSome = true →
        ∃ t, exec (.streamItem (.remoteResult op seq status rs)) r = .next t ∧ t = { s with engine := t.engine } ∧
          t.handoff op.toNat tag = none ∧ ∃ x ∈ t.engine.handoffs, x.opcode = op.toNat ∧ x.tag = tag ∧
            x.ended = some (status.toNat, rs.map (·.toNat))))

/-! ### Field profiles (chapter 10) -/

/-- REPORT_EVALUATION of the binding whose report closed first takes it from the evaluation queue: a well-formed
report becomes the binding's newest, a malformed one is counted and raises condition 0x1 and changes no held or newest
value (R272, R274, R275); where the boundary left an area owed, the area is composed, if the profile has one (R280;
which reports a profile of none calls malformed is log entry 108). A binding that is not next has no effect.
PROFILE_AREA_WRITE writes the composed area of the lowest such binding into the captured half, and no other word of it
changes (R276, R280). -/
def Obligations.ProfileReports : Prop :=
  ∀ (n : Fin 2048) (s : State), s.power.phase = .ready →
    let b := s.binding n
    let base := s.newestRecord b.port b.rbuf
    let w (i : Nat) : Nat := (s.ram (b.port / 8) (base + 6 + i)).toNat
    let bad := State.malformed b (hKind (s.ram (b.port / 8) (base + 1)).toNat)
      (State.plenOf (s.ram (b.port / 8) base).toNat) w
    (s.evalQueue.head? = some n.val → (s.bind n).owed = false → bad = false →
      ∃ t, exec (.reportEvaluation n) s = .next t ∧ t.evalQueue = s.evalQueue.filter (· != n.val) ∧
        (t.bind n).newest = some (State.reportValues b w) ∧ t.captured = s.captured ∧ t.emit = s.emit ∧
        t.blockRam = s.blockRam) ∧
    (s.evalQueue.head? = some n.val → (s.bind n).owed = false → bad = true →
      ∃ t, exec (.reportEvaluation n) s = .next t ∧ t.evalQueue = s.evalQueue.filter (· != n.val) ∧
        (t.bind n).newest = (s.bind n).newest ∧ (t.bind n).held = (s.bind n).held ∧ t.condAny n 1 = true ∧
        t.rd F.GW_PFCNT0.MALF = min (s.rd F.GW_PFCNT0.MALF + 1) 511 ∧ s.keepsRegs [F.GW_PFCNT0.MALF.key] t ∧
        t.captured = s.captured ∧ t.emit = s.emit ∧ t.blockRam = s.blockRam ∧ t.queues = s.queues) ∧
    (s.evalQueue.head? = some n.val → (s.bind n).owed = true →
      ∃ t, exec (.reportEvaluation n) s = .next t ∧ (t.bind n).owed = false ∧
        (t.bind n).area.isSome = decide (b.areaWords ≠ 0) ∧ t.captured = s.captured) ∧
    (s.evalQueue.head? ≠ some n.val → exec (.reportEvaluation n) s = .next s) ∧
    (∀ a, s.rd F.TK_STATUS.PHASE = 0 → (s.binds.all fun e => !(decide (e.1 < n.val) && e.2.area.isSome)) = true →
      (s.bind n).area = some a →
      ∃ t, exec (.profileAreaWrite n) s = .next t ∧ (t.bind n).area = none ∧ (t.bind n).held = a.held ∧
        (∀ i, i < a.words.length → t.capWord (b.parea + i) = wordOf (a.words.getD i 0)) ∧
        (∀ x, (x < b.parea ∨ b.parea + a.words.length ≤ x) → t.capWord x = s.capWord x) ∧
        t = { s with captured := t.captured, binds := t.binds, wear := t.wear }) ∧
    (s.rd F.TK_STATUS.PHASE ≠ 0 → exec (.profileAreaWrite n) s = .next s)

/-- HART_REQUEST takes the next packet of the bulk queue bound 0x4: a request for a binding without the tunnel, or
with a transaction open, is counted and rejected; a good one opens the transaction until HTMO ms from now and releases
HTBUF (R283). HART_REPLY reads the first unread store: with no transaction open it is counted late; one that answers
the open transaction ends it, unless the transaction expired before the store closed. HART_TIMEOUT ends an open
transaction at its expiry with event 0x03 and counts it, unless an answer has been stored by then (R10, R284). A row
that waits for a due clk moves on to it and never back (log entry 3). -/
def Obligations.HartTunnel : Prop :=
  ∀ (n : Fin 2048) (s : State), s.power.phase = .ready →
    let b := s.binding n
    (∀ q, s.boundQueue 4 = some q →
      let h := Queue.head (s.queue q).vis
      let w := h.map (·.word.toNat)
      let w1 := (w.drop 1).headD 0
      let w2 := (w.drop 2).headD 0
      h ≠ [] → h.any (·.bad.isSome) = false → bitsOf w1 10 0 = n.val →
      ((b.en = false ∨ b.hen = false ∨ (s.bind n).hart.isSome = true) →
        ∃ t, exec .hartRequest s = .next t ∧ t.binds = s.binds ∧ t.ports = s.ports ∧ t.blockRam = s.blockRam ∧
          (t.queue q).vis = (s.queue q).vis.drop h.length ∧
          t.rd F.GW_PFCNT1.HREJ = min (s.rd F.GW_PFCNT1.HREJ + 1) 511) ∧
      (b.en = true → b.hen = true → (s.bind n).hart = none → bitsOf (w.headD 0) 17 12 = 1 → 1 ≤ bitsOf w2 7 0 →
        bitsOf w2 7 0 ≤ 69 → (w.drop 3).length = byteWords (bitsOf w2 7 0) → (s.desc b.port b.htbuf).isTx = true →
        s.asleep b.port = false → s.suspended b.port b.htbuf = false →
        ∃ t, exec .hartRequest s = .next t ∧
          (t.bind n).hart = some ⟨bitsOf w1 17 15, bitsOf w2 17 12, s.clk + b.htmo * 200000⟩ ∧
          b.htbuf ∈ (t.port b.port).pend ∧ (t.queue q).vis = (s.queue q).vis.drop h.length ∧
          s.keepsQueues [q] t)) ∧
    (∀ k left, (s.bind n).unread = k :: left → (s.bind n).hart = none →
      ∃ t, exec (.hartReply n) s = .next t ∧ (t.bind n).unread = left ∧ (t.bind n).hart = none ∧
        t.rd F.GW_PFCNT1.HLATE = min (s.rd F.GW_PFCNT1.HLATE + 1) 511 ∧ s.keepsRegs [F.GW_PFCNT1.HLATE.key] t ∧
        t = { s with regs := t.regs, recorded := t.recorded, binds := t.binds, crossIn := t.crossIn }) ∧
    (let base := s.newestRecord b.port b.hrbuf
      let p0 := (s.ram (b.port / 8) (base + 6)).toNat
      let answers (h : Hart) : Prop := 0 < State.plenOf (s.ram (b.port / 8) base).toNat ∧ bitOf p0 14 = true ∧
        bitsOf p0 13 8 = h.htag ∧ bitsOf p0 17 15 = h.chan
      ∀ h, (s.bind n).hart = some h →
        (∀ k left, (s.bind n).unread = k :: left → k ≤ h.expires → answers h →
          (∃ t, exec (.hartReply n) s = .next t ∧ (t.bind n).unread = left ∧ (t.bind n).hart = none ∧
            t.rd F.GW_PFCNT1.HLATE = s.rd F.GW_PFCNT1.HLATE ∧ t.blockRam = s.blockRam) ∧
          (∃ t, exec (.hartTimeout n) s = .next t ∧ (t.bind n).hart = none ∧
            t.rd F.GW_PFCNT1.HTMO = s.rd F.GW_PFCNT1.HTMO)) ∧
        (∀ k left, (s.bind n).unread = k :: left → h.expires < k →
          ∃ t, exec (.hartReply n) s = .next t ∧ (t.bind n).unread = left ∧ (t.bind n).hart = none ∧
            s.postsEvent 0x09 0x03 n t ∧ t.rd F.GW_PFCNT1.HTMO = min (s.rd F.GW_PFCNT1.HTMO + 1) 511 ∧
            t.rd F.GW_PFCNT1.HLATE = min (s.rd F.GW_PFCNT1.HLATE + 1) 511) ∧
        ((∀ k ∈ (s.bind n).unread, h.expires < k) →
          ∃ t, exec (.hartTimeout n) s = .next t ∧ (t.bind n).hart = none ∧ s.postsEvent 0x09 0x03 n t ∧
            t.clk = max s.clk h.expires ∧
            t.rd F.GW_PFCNT1.HTMO = min (s.rd F.GW_PFCNT1.HTMO + 1) 511 ∧ t.blockRam = s.blockRam))

/-! ### The splice bridge (chapter 11) -/

/-- REMOTE_READ, REMOTE_WRITE, REMOTE_LOCK and REMOTE_UNLOCK that Table 11-3 does not refuse: the command is handed off,
the lowest free entry holds its transaction until SB_CTRL.TMO from now, and its frame stands in the port's outbound
queue behind those of remote commands and before every other (R292 to R294, R297 to R300). A lock belongs to the node
from then on; a write, a lock and an unlock drop the prefetch buffers of every window to the node (R302, R305). A
refused command is answered with the status of Table 11-3, 0x0A among them where no entry is free, and has no other
effect. A read that the prefetch buffer holds is answered from it at once, and one that the run in flight reaches waits
for the run without a frame of its own (R301). The row's packet is pushed, popped and started in one step (log entry 6).
-/
def Obligations.RemoteCommands : Prop :=
  ∀ (p : Packet) (s : State), s.isStandby = false →
    let a := Operand.args p
    let w := remoteWindow a
    let n := s.winPort w
    let org := s.winOrg w
    let ofs := remoteOfs a
    let count := remoteCount a
    let addr := (s.rd (F.SB_WBASE.BASE w) + ofs) % 2 ^ 24
    let rd1 := min 30 count
    let reached := s.rd (F.SB_WPF.PFBASE w) + (s.window w).buf.length + ((s.window w).runOpen.map (·.1)).getD 0
    let wr1 := min 29 count
    let sent (c : CmdSpec) (e func addr count : Nat) (rest : List Nat) (t : State) : Prop :=
      s.handedOff c p s.bridge.nextCmd t ∧
      Sparse.find t.bridge.txns e = some ⟨.command s.bridge.nextCmd, w, s.winSet w, func, addr, count, p.seq.toNat,
        s.clk + s.bridgeTmo, false, s.tickNo, true⟩ ∧
      (t.port n).outq = (s.port n).outq.filter (·.1) ++
        [(true, s.rd (F.SB_WRANGE.PRI w), (pack [(func, 12), (org, 0)] :: rest).map wordOf)] ++
        (s.port n).outq.filter (!·.1) ∧
      s.keepsRegs State.engineKeys t ∧
      t = { s with regs := t.regs, recorded := t.recorded, queues := t.queues, engine := t.engine, bridge := t.bridge, ports := t.ports, pair := t.pair }
    let dropped (t : State) : Prop := ∀ w', w' < 16 → s.winPort w' = n → s.winOrg w' = org → (t.window w').buf = []
    let refused (c : CmdSpec) (st : Nat) (t : State) : Prop :=
      s.answered c p st [] t ∧ s.onlyEngine [F.CE_CNT.BADARG.key] t
    (s.starts cmdRemoteRead p = true →
      (∀ e, s.refuseRemote 0x41 w ofs count = none → s.freeTxn = some e →
        (s.prefetches w = false ∨ ofs < s.rd (F.SB_WPF.PFBASE w) ∨ reached < ofs + count) →
        ∃ t, exec (.remoteRead p) s = .next t ∧
          sent cmdRemoteRead e 1 addr rd1 [pack [(e, 12), (bitsOf addr 23 18, 6), (rd1 - 1, 0)], bitsOf addr 17 0] t) ∧
      (s.refuseRemote 0x41 w ofs count = none → s.prefetches w = true → s.rd (F.SB_WPF.PFBASE w) ≤ ofs →
        ofs + count ≤ s.rd (F.SB_WPF.PFBASE w) + (s.window w).buf.length →
        ∃ t, exec (.remoteRead p) s = .next t ∧ s.answered cmdRemoteRead p 0x00 (pack [(count, 12)] ::
          (((s.window w).buf.drop (ofs - s.rd (F.SB_WPF.PFBASE w))).take count).map (·.1.toNat)) t) ∧
      (s.refuseRemote 0x41 w ofs count = none → s.prefetches w = true → s.rd (F.SB_WPF.PFBASE w) ≤ ofs →
        s.rd (F.SB_WPF.PFBASE w) + (s.window w).buf.length < ofs + count → ofs + count ≤ reached →
        ∃ t, exec (.remoteRead p) s = .next t ∧ s.handedOff cmdRemoteRead p s.bridge.nextCmd t ∧
          (Sparse.find t.bridge.cmds s.bridge.nextCmd).map (fun c => (c.waitsRun, c.count)) = some (true, count) ∧
          t.bridge.txns = s.bridge.txns ∧ t.ports = s.ports) ∧
      (∀ st, s.refuseRemote 0x41 w ofs count = some st →
        ∃ t, exec (.remoteRead p) s = .next t ∧ refused cmdRemoteRead st t)) ∧
    (s.starts cmdRemoteWrite p = true →
      (∀ e, s.refuseRemote 0x42 w ofs count = none → s.freeTxn = some e →
        ∃ t, exec (.remoteWrite p) s = .next t ∧ dropped t ∧
          sent cmdRemoteWrite e 2 addr wr1 ([pack [(e, 12), (bitsOf addr 23 18, 6), (wr1 - 1, 0)], bitsOf addr 17 0] ++
            ((p.args.drop 3).take wr1).map fun x => laneWord (s.rd (F.SB_WCFG.LANE w)) x.toNat) t) ∧
      (∀ st, s.refuseRemote 0x42 w ofs count = some st →
        ∃ t, exec (.remoteWrite p) s = .next t ∧ refused cmdRemoteWrite st t)) ∧
    (s.starts cmdRemoteLock p = true →
      (∀ e, s.refuseRemote 0x43 w 0 0 = none → s.freeTxn = some e →
        let req := bitsOf (Operand.word a 3) 11 0
        ∃ t, exec (.remoteLock p) s = .next t ∧ dropped t ∧
          sent cmdRemoteLock e 3 0 0
            [pack [(e, 12), ((wordOf (if req = 0 then s.rd F.SB_CTRL.LEASE else req)).toNat, 0)]] t ∧
          ((s.port n).lock = none → (t.port n).lock = some (org, w, none))) ∧
      (∀ st, s.refuseRemote 0x43 w 0 0 = some st →
        ∃ t, exec (.remoteLock p) s = .next t ∧ refused cmdRemoteLock st t)) ∧
    (s.starts cmdRemoteUnlock p = true →
      (∀ e, s.refuseRemote 0x44 w 0 0 = none → s.freeTxn = some e →
        ∃ t, exec (.remoteUnlock p) s = .next t ∧ dropped t ∧
          sent cmdRemoteUnlock e 4 0 0 [pack [(e, 12)]] t ∧ (t.port n).lock = (s.port n).lock) ∧
      (∀ st, s.refuseRemote 0x44 w 0 0 = some st →
        ∃ t, exec (.remoteUnlock p) s = .next t ∧ refused cmdRemoteUnlock st t))

/-- SERVICE_FRAME_DISPATCH of a stored service frame to this device: a reply that no entry of its TAG expects is counted
as a stray; one that answers the last frame of a read closes it, and its command ends with every word read, under the
window's lane rule; a request is refused with ECODE 0x04 and counted while IEN = 0, and otherwise opens an inbound entry
and begins to go to the host through the bulk queue bound 0x1, a word per clk (R222, R290, R296, R298, R300, R309). -/
def Obligations.ServiceFrames : Prop :=
  ∀ (n : PortId) (stored : Nat) (left : List Nat) (s : State), s.power.phase = .ready → (s.port n).service = stored :: left →
    let base := s.newestRecord n (s.rd (F.SB_PBUF.SRXBUF n))
    let r (i : Nat) : Nat := (s.ram (n.val / 8) (base + i)).toNat
    let len := State.plenOf (r 0)
    let pl := (s.ramList (n.val / 8) (base + 6) len).map (·.toNat)
    let func := bitsOf (r 6) 17 12
    let e := bitsOf (r 7) 17 12
    let arg := bitsOf (r 7) 11 0
    let org := hOrg (r 2)
    let partner := s.flag F.SP_PAIR.EN && s.flag F.SP_PSTAT.SENIOR && org == s.partnerOrigin n && s.towardPartner
    (s.flag (F.SB_PBUF.EN n) = false →
      ∃ t, exec (.serviceFrameDispatch n) s = .next t ∧ (t.port n).service = left ∧
        t = { s with ports := t.ports }) ∧
    (s.flag (F.SB_PBUF.EN n) = true → bitOf (r 0) 17 = false → hKind (r 1) = 2 → 2 ≤ len →
      bitsOf (r 6) 9 0 = s.origin n →
      (0x21 ≤ func → func ≤ 0x25 → Sparse.find s.bridge.txns e = none →
        ∃ t, exec (.serviceFrameDispatch n) s = .next t ∧ (t.port n).service = left ∧
          t.rd F.SB_CNT0.STRAY = min (s.rd F.SB_CNT0.STRAY + 1) 511 ∧ s.keepsRegs [F.SB_CNT0.STRAY.key] t ∧
          t = { s with ports := t.ports, regs := t.regs, crossIn := t.crossIn }) ∧
      (∀ x i c h, func = 0x21 → Sparse.find s.bridge.txns e = some x → x.kind = .command i → x.func = 1 → x.set.org = org →
        x.set.port = n.val → x.quarantine = false → len = 2 + x.count → bitsOf arg 5 0 + 1 = x.count →
        (x.sameSet = false ∨ s.prefetches x.window = false) →
        Sparse.find s.bridge.cmds i = some c → c.opcode = 0x41 → c.count ≤ c.done + x.count →
        h ∈ s.engine.handoffs → h.opcode = 0x41 → h.tag = i → h.ended = none →
        ∃ t, exec (.serviceFrameDispatch n) s = .next t ∧ Sparse.find t.bridge.txns e = none ∧
          Sparse.find t.bridge.cmds i = none ∧
          { h with ended := some (0, pack [(c.done + x.count, 12)] ::
            (c.data ++ (pl.drop 2).map fun v => wordOf (laneWord x.set.lane v)).map (·.toNat)) } ∈ t.engine.handoffs) ∧
      (1 ≤ func → func ≤ 5 → partner = false → s.flag (F.SB_PBUF.IEN n) = false →
        ∃ t, exec (.serviceFrameDispatch n) s = .next t ∧
          t.rd F.SB_CNT0.IREFUSE = min (s.rd F.SB_CNT0.IREFUSE + 1) 511 ∧
          (t.port n).inq = (s.port n).inq ++ [(hPri (r 1),
            ([pack [(func + 0x30, 12), (org, 0)], pack [(e, 12), (arg, 0)]] ++ [4]).map wordOf)] ∧
          t = { s with ports := t.ports, regs := t.regs, crossIn := t.crossIn }) ∧
      (∀ i q, (func = 1 ∨ func = 2 ∨ func = 5) → partner = false → s.flag (F.SB_PBUF.IEN n) = true →
        ((List.range 16).find? fun i => (Sparse.find s.bridge.inbound i).isNone) = some i →
        State.requestFits func arg len = true → s.boundQueue 1 = some q → len + 2 ≤ s.room q →
        ∃ t, exec (.serviceFrameDispatch n) s = .next t ∧
          Sparse.find t.bridge.inbound i = some ⟨n, org, func, e, arg, hPri (r 1), stored + s.bridgeTmo⟩ ∧
          (t.queue q).coming.map (·.2) = ((s.settle q).queue q).coming.map (·.2) ++ [packet (pack [(2, 12), (len + 1, 0)] ::
            ([pack [(n.val, 4), (i, 0)], pack [(func, 12), (org, 0)], r 7] ++ pl.drop 2))] ∧
          (t.port n).inq = (s.port n).inq))

/-- TRANSACTION_TIMEOUT of the first frame of a remote command ends the command with status 0x11 and puts the entry
into quarantine for another SB_CTRL.TMO; QUARANTINE_END frees it (R293, R297). PREFETCH_AGE_DROP drops the words that
are two boundaries old from the bottom of the buffer. POLL_DUE sends a POLL of one word in the clk after the boundary
of a tick that PINT names, or counts a poll skipped where one was open at the boundary, another node holds the port's
lock, or no entry is free (R292, R302, R306, R308). A timeout closes the transaction also where a reply stands stored
in SRXBUF that the bridge has not read (log entry 83, DESIGN CHOICE). A row that waits for a due clk moves on to it
and never back (log entry 3). -/
def Obligations.BridgeTimers : Prop :=
  ∀ (e : Fin 64) (w : Fin 16) (s : State), s.power.phase = .ready →
    (∀ x i c h, Sparse.find s.bridge.txns e = some x → x.quarantine = false → x.kind = .command i →
      Sparse.find s.bridge.cmds i = some c → c.closed = 0 → h ∈ s.engine.handoffs → h.opcode = c.opcode → h.tag = i →
      h.ended = none →
      ∃ t, exec (.transactionTimeout e) s = .next t ∧ t.clk = max s.clk x.expires ∧
        Sparse.find t.bridge.txns e = some { x with quarantine := true, expires := t.clk + s.bridgeTmo } ∧
        Sparse.find t.bridge.cmds i = none ∧
        { h with ended := some (0x11, [pack [(c.done, 12), (2, 10)]]) } ∈ t.engine.handoffs ∧ t.regs = s.regs) ∧
    (∀ x, Sparse.find s.bridge.txns e = some x → x.quarantine = true →
      ∃ t, exec (.quarantineEnd e) s = .next t ∧ Sparse.find t.bridge.txns e = none ∧
        (∀ e', e' ≠ e.val → Sparse.find t.bridge.txns e' = Sparse.find s.bridge.txns e') ∧
        t.clk = max s.clk x.expires ∧
        t = { s with tick := t.tick, bridge := { s.bridge with txns := t.bridge.txns } }) ∧
    (∀ old rest, (s.window w).buf = old ++ rest → old ≠ [] → (∀ x ∈ old, 2 ≤ x.2) → (∀ x ∈ rest, x.2 < 2) →
      ∃ t, exec (.prefetchAgeDrop w) s = .next t ∧ (t.window w).buf = rest ∧
        t.rd (F.SB_WPF.PFBASE w) = (s.rd (F.SB_WPF.PFBASE w) + old.length) % 2 ^ 24 ∧
        s.keepsRegs [(F.SB_WPF.PFBASE w).key] t) ∧
    (s.winLive w = true → s.rd (F.SB_WPOLL.PINT w) ≠ 0 → s.tickNo % s.rd (F.SB_WPOLL.PINT w) = 0 →
      (s.window w).polled = false →
      let k := s.tick.boundaryClk + 1
      let blocked := s.pollWasOpen w = true ∨ s.lockedOther (s.winPort w) (s.winOrg w) = true
      let addr := (s.rd (F.SB_WBASE.BASE w) + s.rd (F.SB_WPOLL.POFS w)) % 2 ^ 24
      (blocked ∨ s.freeTxn = none →
        ∃ t, exec (.pollDue w) s = .next t ∧ (t.window w).polled = true ∧ t.ports = s.ports ∧ t.clk = max s.clk k ∧
          t.rd F.SB_CNT0.POLLSKIP = min (s.rd F.SB_CNT0.POLLSKIP + 1) 511 ∧ t.bridge.txns = s.bridge.txns) ∧
      (∀ i, ¬ blocked → s.freeTxn = some i →
        ∃ t, exec (.pollDue w) s = .next t ∧ (t.window w).polled = true ∧ t.regs = s.regs ∧ t.clk = max s.clk k ∧
          Sparse.find t.bridge.txns i = some ⟨.poll, w, s.winSet w, 5, addr, 1, 0, k + s.bridgeTmo, false, s.tickNo,
            true⟩ ∧
          (t.port (s.winPort w)).outq = (s.port (s.winPort w)).outq ++ [(false, s.rd (F.SB_WRANGE.PRI w),
            [pack [(5, 12), (s.winOrg w, 0)], pack [(i, 12), (bitsOf addr 23 18, 6)], bitsOf addr 17 0].map wordOf)]))

/-- OUTBOUND_RELEASE writes the frame that is first in the port's outbound queue into the record of OTXBUF and
releases the buffer, or the first reply into that of ITXBUF; a buffer that is still pending waits (R289, R293).
LEASE_EXPIRY ends the lock with event 0x03 (R307). HOST_ANSWER takes the host's answer to an inbound entry, frees the
entry and queues the reply to the node, and counts an answer to no entry; INBOUND_EXPIRY answers the node with ECODE
0x04 (R310). A row that waits for a due clk moves on to it and never back (log entry 3). -/
def Obligations.BridgePorts : Prop :=
  ∀ (n : PortId) (i : Fin 16) (s : State), s.power.phase = .ready →
    (∀ inbound : Bool,
      let d := s.rd (if inbound then F.SB_PBUF.ITXBUF n else F.SB_PBUF.OTXBUF n)
      let D := s.desc n d
      (s.flag (F.SB_PBUF.EN n) = false ∨ d ∈ (s.port n).pend →
        exec (.outboundRelease n inbound) s = .next s) ∧
      (∀ pri f, s.flag (F.SB_PBUF.EN n) = true → d ∉ (s.port n).pend →
        (if inbound then (s.port n).inq.head? else (s.port n).outq.head?.map (·.2)) = some (pri, f) →
        D.isTx = true → s.asleep n = false → s.suspended n d = false → 0x900 ≤ D.dataptr →
        4 * D.dataptr + 6 + f.length ≤ 32768 →
        ∃ t, exec (.outboundRelease n inbound) s = .next t ∧ d ∈ (t.port n).pend ∧
          (if inbound then (t.port n).inq = (s.port n).inq.tail ∧ (t.port n).outq = (s.port n).outq
            else (t.port n).outq = (s.port n).outq.tail ∧ (t.port n).inq = (s.port n).inq) ∧
          (∀ k, k < f.length → t.ram (n.val / 8) (4 * D.dataptr + 6 + k) = f.getD k 0) ∧
          s.keepsRam (fun b k => b = n.val / 8 ∧ 4 * D.dataptr ≤ k ∧ k < 4 * D.dataptr + 6 + f.length) t ∧
          t.regs = s.regs)) ∧
    (∀ org w at', (s.port n).lock = some (org, w, some at') →
      ∃ t, exec (.leaseExpiry n) s = .next t ∧ (t.port n).lock = none ∧ s.postsEvent 0x0A 0x03 0 t ∧
        t.clk = max s.clk at' ∧ t = { s with tick := t.tick, ports := t.ports, merger := t.merger }) ∧
    (∀ q, s.boundQueue 2 = some q →
      let h := Queue.head (s.queue q).vis
      let w := h.map (·.word.toNat)
      let w1 := (w.drop 1).headD 0
      h ≠ [] → h.any (·.bad.isSome) = false → bitsOf w1 3 0 = i.val →
      (Sparse.find s.bridge.inbound i = none →
        ∃ t, exec .hostAnswer s = .next t ∧ t.ports = s.ports ∧ t.bridge = s.bridge ∧
          (t.queue q).vis = (s.queue q).vis.drop h.length ∧
          t.rd F.SB_CNT1.HBAD = min (s.rd F.SB_CNT1.HBAD + 1) 511) ∧
      (∀ r, Sparse.find s.bridge.inbound i = some r → bitsOf (w.headD 0) 17 12 = 2 → 3 ≤ w.length → r.func = 1 →
        bitOf w1 17 = false → (w.drop 3).length = bitsOf r.arg 5 0 + 1 →
        ∃ t, exec .hostAnswer s = .next t ∧ Sparse.find t.bridge.inbound i = none ∧
          (t.port r.port).inq = (s.port r.port).inq ++ [(r.pri, ([pack [(0x21, 12), (r.org, 0)], pack [(r.tag, 12),
            (pack [(b2n (bitOf w1 16), 11), (bitsOf r.arg 5 0, 0)], 0)]] ++ w.drop 3).map wordOf)])) ∧
    (∀ r, Sparse.find s.bridge.inbound i = some r →
      ∃ t, exec (.inboundExpiry i) s = .next t ∧ Sparse.find t.bridge.inbound i = none ∧
        (t.port r.port).inq = (s.port r.port).inq ++
          [(r.pri, ([pack [(r.func + 0x30, 12), (r.org, 0)], pack [(r.tag, 12), (r.arg, 0)]] ++ [4]).map wordOf)] ∧
        t.clk = max s.clk r.expires ∧ t.regs = s.regs)

/-! ### The state after reset and the RAMs -/

/-- The signal image (R238): its two halves of 65,536 words stand in the windows from 0x5_0000 and 0x5_8000 on, the
word of an even index as the low word of its dword. Every reset leaves 0x3_0000, which is quality bad with value 0, in
every word of both halves, and the words hold it through the rows of the start-up, which write none of them. -/
def Obligations.SignalImage : Prop :=
  (∀ i, i < 65536 → targetOf (0x50000 + i / 2) = .captured (i / 2) ∧ targetOf (0x58000 + i / 2) = .emit (i / 2)) ∧
  (∀ (s : State) (i : Nat),
    s.targetView (.captured i) = (s.capWord (2 * i)).toNat + 2 ^ 18 * (s.capWord (2 * i + 1)).toNat ∧
    s.targetView (.emit i) = (s.emitWord (2 * i)).toNat + 2 ^ 18 * (s.emitWord (2 * i + 1)).toNat) ∧
  qOf 0x30000 = 3 ∧ vOf 0x30000 = 0 ∧
  (∀ (s : State) (c : Instr), c ∈ [.powerOnReset, .brownout, .pinReset, .clockFaultReset, .thermalReset] →
    ∃ t, exec c s = .next t ∧ ∀ i, t.capWord i = 0x30000 ∧ t.emitWord i = 0x30000) ∧
  (∀ (s : State) (c : Instr), s.power.phase ≠ .ready →
    (c = .mainPllLockTimeout ∨ (∃ senior ports bootsel, c = .resetRelease senior ports bootsel) ∨
      ∃ lockUs failing, c = .ready lockUs failing) →
    ∃ t, exec c s = .next t ∧ ∀ i, t.capWord i = s.capWord i ∧ t.emitWord i = s.emitWord i)

/-- The state after reset: the device is held in reset, no command waits, every register field reads its reset value
and SYS_RSTCAUSE names the power-on reset, and both halves of the signal image, the two dwords of which hold words 2i
and 2i + 1, hold 0x3_0000 in every word (R238). Named besides: the period of 50,000 clk and the deadlines of the
phases, WAITLIM of 16 boundaries, the bridge's timeout of 2 ms, ports that are DARK, and a cell that integrates. The
canonical form of the RAMs is the model's own (log entry 7, DESIGN CHOICE), and 0 in the fields that the spec leaves
to the start-up is log entry 14 (DEDUCED). -/
def Obligations.ResetState : Prop :=
  State.reset.power.phase = .inReset ∧ State.reset.pending = [] ∧ State.reset.ramsOk = true ∧
  (∀ f : Field, f.key ≠ F.SYS_RSTCAUSE.POR.key →
    State.reset.rd f = f.reset ∧ State.reset.staged f = f.reset) ∧ State.reset.rd F.SYS_RSTCAUSE.POR = 1 ∧
  (∀ i, State.reset.capWord i = 0x30000 ∧ State.reset.emitWord i = 0x30000) ∧
  (∀ i, i < 32768 → targetOf (0x50000 + i) = .captured i ∧ targetOf (0x58000 + i) = .emit i) ∧
  (∀ (s : State) (i : Nat), s.targetView (.captured i) =
    (s.capWord (2 * i)).toNat + 2 ^ 18 * (s.capWord (2 * i + 1)).toNat) ∧
  (∀ i, State.reset.targetView (.emit i) = 0x30000 + 2 ^ 18 * 0x30000) ∧
  (∀ k w, State.reset.knotWord k w = 0 ∧ State.reset.scaleWord k w = 0 ∧ State.reset.patchWord k = 0) ∧
  State.reset.rd F.TK_PERIOD.PERIOD = 50000 ∧ State.reset.rd F.TK_DL_CAPTURE.OFFSET = 4000 ∧
  State.reset.rd F.TK_DL_MAP.OFFSET = 35000 ∧ State.reset.rd F.TK_DL_EMIT.OFFSET = 40000 ∧
  State.reset.rd F.CE_CFG.WAITLIM = 16 ∧ State.reset.rd F.SB_CTRL.TMO = 200 ∧
  (∀ n : PortId, State.reset.portState n = 4) ∧ (∀ c : CellId, State.reset.conf c = 0)

/-- An invariant of the machine: every RAM of the device (block message RAM, both halves of the signal image, knot
table, scale table, patch RAM) stays in the canonical form of its table, with rising keys and no entry equal to what
an unlisted word reads as, through every step from every state that has it. That form is the model's own (log entry
7). -/
def Obligations.StepKeepsRams : Prop :=
  ∀ s t : State, s.ramsOk = true → step s = .next t → t.ramsOk = true
end

