-- ==== Sys2Proof/Laws/State.lean ====
section
/-! SUPPORT. For each named update of the state, one lemma for each field of `State`: what the field is after it. -/

namespace Sys2Proof.Machine
namespace State

variable (s : State)


/-! ### `wr` -/

@[simp] theorem wr_pending (f : Field) (v : Nat) : (s.wr f v).pending = s.pending := rfl
@[simp] theorem wr_stage (f : Field) (v : Nat) : (s.wr f v).stage = s.stage := rfl
@[simp] theorem wr_stageWas (f : Field) (v : Nat) : (s.wr f v).stageWas = s.stageWas := rfl
@[simp] theorem wr_recorded (f : Field) (v : Nat) : (s.wr f v).recorded = s.recorded := rfl
@[simp] theorem wr_tick (f : Field) (v : Nat) : (s.wr f v).tick = s.tick := rfl
@[simp] theorem wr_engine (f : Field) (v : Nat) : (s.wr f v).engine = s.engine := rfl
@[simp] theorem wr_queues (f : Field) (v : Nat) : (s.wr f v).queues = s.queues := rfl
@[simp] theorem wr_merger (f : Field) (v : Nat) : (s.wr f v).merger = s.merger := rfl
@[simp] theorem wr_blockRam (f : Field) (v : Nat) : (s.wr f v).blockRam = s.blockRam := rfl
@[simp] theorem wr_captured (f : Field) (v : Nat) : (s.wr f v).captured = s.captured := rfl
@[simp] theorem wr_emit (f : Field) (v : Nat) : (s.wr f v).emit = s.emit := rfl
@[simp] theorem wr_knots (f : Field) (v : Nat) : (s.wr f v).knots = s.knots := rfl
@[simp] theorem wr_scales (f : Field) (v : Nat) : (s.wr f v).scales = s.scales := rfl
@[simp] theorem wr_gateway (f : Field) (v : Nat) : (s.wr f v).gateway = s.gateway := rfl
@[simp] theorem wr_cells (f : Field) (v : Nat) : (s.wr f v).cells = s.cells := rfl
@[simp] theorem wr_ports (f : Field) (v : Nat) : (s.wr f v).ports = s.ports := rfl
@[simp] theorem wr_rewrites (f : Field) (v : Nat) : (s.wr f v).rewrites = s.rewrites := rfl
@[simp] theorem wr_blocks (f : Field) (v : Nat) : (s.wr f v).blocks = s.blocks := rfl
@[simp] theorem wr_binds (f : Field) (v : Nat) : (s.wr f v).binds = s.binds := rfl
@[simp] theorem wr_evalQueue (f : Field) (v : Nat) : (s.wr f v).evalQueue = s.evalQueue := rfl
@[simp] theorem wr_bridge (f : Field) (v : Nat) : (s.wr f v).bridge = s.bridge := rfl
@[simp] theorem wr_wakeLog (f : Field) (v : Nat) : (s.wr f v).wakeLog = s.wakeLog := rfl
@[simp] theorem wr_kaLog (f : Field) (v : Nat) : (s.wr f v).kaLog = s.kaLog := rfl
@[simp] theorem wr_wear (f : Field) (v : Nat) : (s.wr f v).wear = s.wear := rfl
@[simp] theorem wr_pair (f : Field) (v : Nat) : (s.wr f v).pair = s.pair := rfl
@[simp] theorem wr_power (f : Field) (v : Nat) : (s.wr f v).power = s.power := rfl
@[simp] theorem wr_hostOut (f : Field) (v : Nat) : (s.wr f v).hostOut = s.hostOut := rfl
@[simp] theorem wr_hostPar (f : Field) (v : Nat) : (s.wr f v).hostPar = s.hostPar := rfl
@[simp] theorem wr_hostClk (f : Field) (v : Nat) : (s.wr f v).hostClk = s.hostClk := rfl
@[simp] theorem wr_crossIn (f : Field) (v : Nat) : (s.wr f v).crossIn = s.crossIn := rfl
@[simp] theorem wr_crossOut (f : Field) (v : Nat) : (s.wr f v).crossOut = s.crossOut := rfl
@[simp] theorem wr_once (f : Field) (v : Nat) : (s.wr f v).once = s.once := rfl
@[simp] theorem wr_free (f : Field) (v : Nat) : (s.wr f v).free = s.free := rfl

/-! ### `stageWr` -/

@[simp] theorem stageWr_pending (f : Field) (v : Nat) : (s.stageWr f v).pending = s.pending := rfl
@[simp] theorem stageWr_regs (f : Field) (v : Nat) : (s.stageWr f v).regs = s.regs := rfl
@[simp] theorem stageWr_recorded (f : Field) (v : Nat) : (s.stageWr f v).recorded = s.recorded := rfl
@[simp] theorem stageWr_tick (f : Field) (v : Nat) : (s.stageWr f v).tick = s.tick := rfl
@[simp] theorem stageWr_engine (f : Field) (v : Nat) : (s.stageWr f v).engine = s.engine := rfl
@[simp] theorem stageWr_queues (f : Field) (v : Nat) : (s.stageWr f v).queues = s.queues := rfl
@[simp] theorem stageWr_merger (f : Field) (v : Nat) : (s.stageWr f v).merger = s.merger := rfl
@[simp] theorem stageWr_blockRam (f : Field) (v : Nat) : (s.stageWr f v).blockRam = s.blockRam := rfl
@[simp] theorem stageWr_captured (f : Field) (v : Nat) : (s.stageWr f v).captured = s.captured := rfl
@[simp] theorem stageWr_emit (f : Field) (v : Nat) : (s.stageWr f v).emit = s.emit := rfl
@[simp] theorem stageWr_knots (f : Field) (v : Nat) : (s.stageWr f v).knots = s.knots := rfl
@[simp] theorem stageWr_scales (f : Field) (v : Nat) : (s.stageWr f v).scales = s.scales := rfl
@[simp] theorem stageWr_gateway (f : Field) (v : Nat) : (s.stageWr f v).gateway = s.gateway := rfl
@[simp] theorem stageWr_cells (f : Field) (v : Nat) : (s.stageWr f v).cells = s.cells := rfl
@[simp] theorem stageWr_ports (f : Field) (v : Nat) : (s.stageWr f v).ports = s.ports := rfl
@[simp] theorem stageWr_rewrites (f : Field) (v : Nat) : (s.stageWr f v).rewrites = s.rewrites := rfl
@[simp] theorem stageWr_blocks (f : Field) (v : Nat) : (s.stageWr f v).blocks = s.blocks := rfl
@[simp] theorem stageWr_binds (f : Field) (v : Nat) : (s.stageWr f v).binds = s.binds := rfl
@[simp] theorem stageWr_evalQueue (f : Field) (v : Nat) : (s.stageWr f v).evalQueue = s.evalQueue := rfl
@[simp] theorem stageWr_bridge (f : Field) (v : Nat) : (s.stageWr f v).bridge = s.bridge := rfl
@[simp] theorem stageWr_wakeLog (f : Field) (v : Nat) : (s.stageWr f v).wakeLog = s.wakeLog := rfl
@[simp] theorem stageWr_kaLog (f : Field) (v : Nat) : (s.stageWr f v).kaLog = s.kaLog := rfl
@[simp] theorem stageWr_wear (f : Field) (v : Nat) : (s.stageWr f v).wear = s.wear := rfl
@[simp] theorem stageWr_pair (f : Field) (v : Nat) : (s.stageWr f v).pair = s.pair := rfl
@[simp] theorem stageWr_power (f : Field) (v : Nat) : (s.stageWr f v).power = s.power := rfl
@[simp] theorem stageWr_hostOut (f : Field) (v : Nat) : (s.stageWr f v).hostOut = s.hostOut := rfl
@[simp] theorem stageWr_hostPar (f : Field) (v : Nat) : (s.stageWr f v).hostPar = s.hostPar := rfl
@[simp] theorem stageWr_hostClk (f : Field) (v : Nat) : (s.stageWr f v).hostClk = s.hostClk := rfl
@[simp] theorem stageWr_crossIn (f : Field) (v : Nat) : (s.stageWr f v).crossIn = s.crossIn := rfl
@[simp] theorem stageWr_crossOut (f : Field) (v : Nat) : (s.stageWr f v).crossOut = s.crossOut := rfl
@[simp] theorem stageWr_once (f : Field) (v : Nat) : (s.stageWr f v).once = s.once := rfl
@[simp] theorem stageWr_free (f : Field) (v : Nat) : (s.stageWr f v).free = s.free := rfl

/-! ### `wrK` -/

@[simp] theorem wrK_pending (k v d : Nat) : (s.wrK k v d).pending = s.pending := rfl
@[simp] theorem wrK_stage (k v d : Nat) : (s.wrK k v d).stage = s.stage := rfl
@[simp] theorem wrK_stageWas (k v d : Nat) : (s.wrK k v d).stageWas = s.stageWas := rfl
@[simp] theorem wrK_recorded (k v d : Nat) : (s.wrK k v d).recorded = s.recorded := rfl
@[simp] theorem wrK_tick (k v d : Nat) : (s.wrK k v d).tick = s.tick := rfl
@[simp] theorem wrK_engine (k v d : Nat) : (s.wrK k v d).engine = s.engine := rfl
@[simp] theorem wrK_queues (k v d : Nat) : (s.wrK k v d).queues = s.queues := rfl
@[simp] theorem wrK_merger (k v d : Nat) : (s.wrK k v d).merger = s.merger := rfl
@[simp] theorem wrK_blockRam (k v d : Nat) : (s.wrK k v d).blockRam = s.blockRam := rfl
@[simp] theorem wrK_captured (k v d : Nat) : (s.wrK k v d).captured = s.captured := rfl
@[simp] theorem wrK_emit (k v d : Nat) : (s.wrK k v d).emit = s.emit := rfl
@[simp] theorem wrK_knots (k v d : Nat) : (s.wrK k v d).knots = s.knots := rfl
@[simp] theorem wrK_scales (k v d : Nat) : (s.wrK k v d).scales = s.scales := rfl
@[simp] theorem wrK_gateway (k v d : Nat) : (s.wrK k v d).gateway = s.gateway := rfl
@[simp] theorem wrK_cells (k v d : Nat) : (s.wrK k v d).cells = s.cells := rfl
@[simp] theorem wrK_ports (k v d : Nat) : (s.wrK k v d).ports = s.ports := rfl
@[simp] theorem wrK_rewrites (k v d : Nat) : (s.wrK k v d).rewrites = s.rewrites := rfl
@[simp] theorem wrK_blocks (k v d : Nat) : (s.wrK k v d).blocks = s.blocks := rfl
@[simp] theorem wrK_binds (k v d : Nat) : (s.wrK k v d).binds = s.binds := rfl
@[simp] theorem wrK_evalQueue (k v d : Nat) : (s.wrK k v d).evalQueue = s.evalQueue := rfl
@[simp] theorem wrK_bridge (k v d : Nat) : (s.wrK k v d).bridge = s.bridge := rfl
@[simp] theorem wrK_wakeLog (k v d : Nat) : (s.wrK k v d).wakeLog = s.wakeLog := rfl
@[simp] theorem wrK_kaLog (k v d : Nat) : (s.wrK k v d).kaLog = s.kaLog := rfl
@[simp] theorem wrK_wear (k v d : Nat) : (s.wrK k v d).wear = s.wear := rfl
@[simp] theorem wrK_pair (k v d : Nat) : (s.wrK k v d).pair = s.pair := rfl
@[simp] theorem wrK_power (k v d : Nat) : (s.wrK k v d).power = s.power := rfl
@[simp] theorem wrK_hostOut (k v d : Nat) : (s.wrK k v d).hostOut = s.hostOut := rfl
@[simp] theorem wrK_hostPar (k v d : Nat) : (s.wrK k v d).hostPar = s.hostPar := rfl
@[simp] theorem wrK_hostClk (k v d : Nat) : (s.wrK k v d).hostClk = s.hostClk := rfl
@[simp] theorem wrK_crossIn (k v d : Nat) : (s.wrK k v d).crossIn = s.crossIn := rfl
@[simp] theorem wrK_crossOut (k v d : Nat) : (s.wrK k v d).crossOut = s.crossOut := rfl
@[simp] theorem wrK_once (k v d : Nat) : (s.wrK k v d).once = s.once := rfl
@[simp] theorem wrK_free (k v d : Nat) : (s.wrK k v d).free = s.free := rfl

/-! ### `stageK` -/

@[simp] theorem stageK_pending (k v d : Nat) : (s.stageK k v d).pending = s.pending := rfl
@[simp] theorem stageK_regs (k v d : Nat) : (s.stageK k v d).regs = s.regs := rfl
@[simp] theorem stageK_recorded (k v d : Nat) : (s.stageK k v d).recorded = s.recorded := rfl
@[simp] theorem stageK_tick (k v d : Nat) : (s.stageK k v d).tick = s.tick := rfl
@[simp] theorem stageK_engine (k v d : Nat) : (s.stageK k v d).engine = s.engine := rfl
@[simp] theorem stageK_queues (k v d : Nat) : (s.stageK k v d).queues = s.queues := rfl
@[simp] theorem stageK_merger (k v d : Nat) : (s.stageK k v d).merger = s.merger := rfl
@[simp] theorem stageK_blockRam (k v d : Nat) : (s.stageK k v d).blockRam = s.blockRam := rfl
@[simp] theorem stageK_captured (k v d : Nat) : (s.stageK k v d).captured = s.captured := rfl
@[simp] theorem stageK_emit (k v d : Nat) : (s.stageK k v d).emit = s.emit := rfl
@[simp] theorem stageK_knots (k v d : Nat) : (s.stageK k v d).knots = s.knots := rfl
@[simp] theorem stageK_scales (k v d : Nat) : (s.stageK k v d).scales = s.scales := rfl
@[simp] theorem stageK_gateway (k v d : Nat) : (s.stageK k v d).gateway = s.gateway := rfl
@[simp] theorem stageK_cells (k v d : Nat) : (s.stageK k v d).cells = s.cells := rfl
@[simp] theorem stageK_ports (k v d : Nat) : (s.stageK k v d).ports = s.ports := rfl
@[simp] theorem stageK_rewrites (k v d : Nat) : (s.stageK k v d).rewrites = s.rewrites := rfl
@[simp] theorem stageK_blocks (k v d : Nat) : (s.stageK k v d).blocks = s.blocks := rfl
@[simp] theorem stageK_binds (k v d : Nat) : (s.stageK k v d).binds = s.binds := rfl
@[simp] theorem stageK_evalQueue (k v d : Nat) : (s.stageK k v d).evalQueue = s.evalQueue := rfl
@[simp] theorem stageK_bridge (k v d : Nat) : (s.stageK k v d).bridge = s.bridge := rfl
@[simp] theorem stageK_wakeLog (k v d : Nat) : (s.stageK k v d).wakeLog = s.wakeLog := rfl
@[simp] theorem stageK_kaLog (k v d : Nat) : (s.stageK k v d).kaLog = s.kaLog := rfl
@[simp] theorem stageK_wear (k v d : Nat) : (s.stageK k v d).wear = s.wear := rfl
@[simp] theorem stageK_pair (k v d : Nat) : (s.stageK k v d).pair = s.pair := rfl
@[simp] theorem stageK_power (k v d : Nat) : (s.stageK k v d).power = s.power := rfl
@[simp] theorem stageK_hostOut (k v d : Nat) : (s.stageK k v d).hostOut = s.hostOut := rfl
@[simp] theorem stageK_hostPar (k v d : Nat) : (s.stageK k v d).hostPar = s.hostPar := rfl
@[simp] theorem stageK_hostClk (k v d : Nat) : (s.stageK k v d).hostClk = s.hostClk := rfl
@[simp] theorem stageK_crossIn (k v d : Nat) : (s.stageK k v d).crossIn = s.crossIn := rfl
@[simp] theorem stageK_crossOut (k v d : Nat) : (s.stageK k v d).crossOut = s.crossOut := rfl
@[simp] theorem stageK_once (k v d : Nat) : (s.stageK k v d).once = s.once := rfl
@[simp] theorem stageK_free (k v d : Nat) : (s.stageK k v d).free = s.free := rfl

/-! ### `modCell` -/

@[simp] theorem modCell_pending (c : Nat) (f : Cell → Cell) : (s.modCell c f).pending = s.pending := rfl
@[simp] theorem modCell_regs (c : Nat) (f : Cell → Cell) : (s.modCell c f).regs = s.regs := rfl
@[simp] theorem modCell_stage (c : Nat) (f : Cell → Cell) : (s.modCell c f).stage = s.stage := rfl
@[simp] theorem modCell_stageWas (c : Nat) (f : Cell → Cell) : (s.modCell c f).stageWas = s.stageWas := rfl
@[simp] theorem modCell_recorded (c : Nat) (f : Cell → Cell) : (s.modCell c f).recorded = s.recorded := rfl
@[simp] theorem modCell_tick (c : Nat) (f : Cell → Cell) : (s.modCell c f).tick = s.tick := rfl
@[simp] theorem modCell_engine (c : Nat) (f : Cell → Cell) : (s.modCell c f).engine = s.engine := rfl
@[simp] theorem modCell_queues (c : Nat) (f : Cell → Cell) : (s.modCell c f).queues = s.queues := rfl
@[simp] theorem modCell_merger (c : Nat) (f : Cell → Cell) : (s.modCell c f).merger = s.merger := rfl
@[simp] theorem modCell_blockRam (c : Nat) (f : Cell → Cell) : (s.modCell c f).blockRam = s.blockRam := rfl
@[simp] theorem modCell_captured (c : Nat) (f : Cell → Cell) : (s.modCell c f).captured = s.captured := rfl
@[simp] theorem modCell_emit (c : Nat) (f : Cell → Cell) : (s.modCell c f).emit = s.emit := rfl
@[simp] theorem modCell_knots (c : Nat) (f : Cell → Cell) : (s.modCell c f).knots = s.knots := rfl
@[simp] theorem modCell_scales (c : Nat) (f : Cell → Cell) : (s.modCell c f).scales = s.scales := rfl
@[simp] theorem modCell_gateway (c : Nat) (f : Cell → Cell) : (s.modCell c f).gateway = s.gateway := rfl
@[simp] theorem modCell_ports (c : Nat) (f : Cell → Cell) : (s.modCell c f).ports = s.ports := rfl
@[simp] theorem modCell_rewrites (c : Nat) (f : Cell → Cell) : (s.modCell c f).rewrites = s.rewrites := rfl
@[simp] theorem modCell_blocks (c : Nat) (f : Cell → Cell) : (s.modCell c f).blocks = s.blocks := rfl
@[simp] theorem modCell_binds (c : Nat) (f : Cell → Cell) : (s.modCell c f).binds = s.binds := rfl
@[simp] theorem modCell_evalQueue (c : Nat) (f : Cell → Cell) : (s.modCell c f).evalQueue = s.evalQueue := rfl
@[simp] theorem modCell_bridge (c : Nat) (f : Cell → Cell) : (s.modCell c f).bridge = s.bridge := rfl
@[simp] theorem modCell_wakeLog (c : Nat) (f : Cell → Cell) : (s.modCell c f).wakeLog = s.wakeLog := rfl
@[simp] theorem modCell_kaLog (c : Nat) (f : Cell → Cell) : (s.modCell c f).kaLog = s.kaLog := rfl
@[simp] theorem modCell_wear (c : Nat) (f : Cell → Cell) : (s.modCell c f).wear = s.wear := rfl
@[simp] theorem modCell_pair (c : Nat) (f : Cell → Cell) : (s.modCell c f).pair = s.pair := rfl
@[simp] theorem modCell_power (c : Nat) (f : Cell → Cell) : (s.modCell c f).power = s.power := rfl
@[simp] theorem modCell_hostOut (c : Nat) (f : Cell → Cell) : (s.modCell c f).hostOut = s.hostOut := rfl
@[simp] theorem modCell_hostPar (c : Nat) (f : Cell → Cell) : (s.modCell c f).hostPar = s.hostPar := rfl
@[simp] theorem modCell_hostClk (c : Nat) (f : Cell → Cell) : (s.modCell c f).hostClk = s.hostClk := rfl
@[simp] theorem modCell_crossIn (c : Nat) (f : Cell → Cell) : (s.modCell c f).crossIn = s.crossIn := rfl
@[simp] theorem modCell_crossOut (c : Nat) (f : Cell → Cell) : (s.modCell c f).crossOut = s.crossOut := rfl
@[simp] theorem modCell_once (c : Nat) (f : Cell → Cell) : (s.modCell c f).once = s.once := rfl
@[simp] theorem modCell_free (c : Nat) (f : Cell → Cell) : (s.modCell c f).free = s.free := rfl

/-! ### `modPort` -/

@[simp] theorem modPort_pending (n : Nat) (f : Port → Port) : (s.modPort n f).pending = s.pending := rfl
@[simp] theorem modPort_regs (n : Nat) (f : Port → Port) : (s.modPort n f).regs = s.regs := rfl
@[simp] theorem modPort_stage (n : Nat) (f : Port → Port) : (s.modPort n f).stage = s.stage := rfl
@[simp] theorem modPort_stageWas (n : Nat) (f : Port → Port) : (s.modPort n f).stageWas = s.stageWas := rfl
@[simp] theorem modPort_recorded (n : Nat) (f : Port → Port) : (s.modPort n f).recorded = s.recorded := rfl
@[simp] theorem modPort_tick (n : Nat) (f : Port → Port) : (s.modPort n f).tick = s.tick := rfl
@[simp] theorem modPort_engine (n : Nat) (f : Port → Port) : (s.modPort n f).engine = s.engine := rfl
@[simp] theorem modPort_queues (n : Nat) (f : Port → Port) : (s.modPort n f).queues = s.queues := rfl
@[simp] theorem modPort_merger (n : Nat) (f : Port → Port) : (s.modPort n f).merger = s.merger := rfl
@[simp] theorem modPort_blockRam (n : Nat) (f : Port → Port) : (s.modPort n f).blockRam = s.blockRam := rfl
@[simp] theorem modPort_captured (n : Nat) (f : Port → Port) : (s.modPort n f).captured = s.captured := rfl
@[simp] theorem modPort_emit (n : Nat) (f : Port → Port) : (s.modPort n f).emit = s.emit := rfl
@[simp] theorem modPort_knots (n : Nat) (f : Port → Port) : (s.modPort n f).knots = s.knots := rfl
@[simp] theorem modPort_scales (n : Nat) (f : Port → Port) : (s.modPort n f).scales = s.scales := rfl
@[simp] theorem modPort_gateway (n : Nat) (f : Port → Port) : (s.modPort n f).gateway = s.gateway := rfl
@[simp] theorem modPort_cells (n : Nat) (f : Port → Port) : (s.modPort n f).cells = s.cells := rfl
@[simp] theorem modPort_rewrites (n : Nat) (f : Port → Port) : (s.modPort n f).rewrites = s.rewrites := rfl
@[simp] theorem modPort_blocks (n : Nat) (f : Port → Port) : (s.modPort n f).blocks = s.blocks := rfl
@[simp] theorem modPort_binds (n : Nat) (f : Port → Port) : (s.modPort n f).binds = s.binds := rfl
@[simp] theorem modPort_evalQueue (n : Nat) (f : Port → Port) : (s.modPort n f).evalQueue = s.evalQueue := rfl
@[simp] theorem modPort_bridge (n : Nat) (f : Port → Port) : (s.modPort n f).bridge = s.bridge := rfl
@[simp] theorem modPort_wakeLog (n : Nat) (f : Port → Port) : (s.modPort n f).wakeLog = s.wakeLog := rfl
@[simp] theorem modPort_kaLog (n : Nat) (f : Port → Port) : (s.modPort n f).kaLog = s.kaLog := rfl
@[simp] theorem modPort_wear (n : Nat) (f : Port → Port) : (s.modPort n f).wear = s.wear := rfl
@[simp] theorem modPort_pair (n : Nat) (f : Port → Port) : (s.modPort n f).pair = s.pair := rfl
@[simp] theorem modPort_power (n : Nat) (f : Port → Port) : (s.modPort n f).power = s.power := rfl
@[simp] theorem modPort_hostOut (n : Nat) (f : Port → Port) : (s.modPort n f).hostOut = s.hostOut := rfl
@[simp] theorem modPort_hostPar (n : Nat) (f : Port → Port) : (s.modPort n f).hostPar = s.hostPar := rfl
@[simp] theorem modPort_hostClk (n : Nat) (f : Port → Port) : (s.modPort n f).hostClk = s.hostClk := rfl
@[simp] theorem modPort_crossIn (n : Nat) (f : Port → Port) : (s.modPort n f).crossIn = s.crossIn := rfl
@[simp] theorem modPort_crossOut (n : Nat) (f : Port → Port) : (s.modPort n f).crossOut = s.crossOut := rfl
@[simp] theorem modPort_once (n : Nat) (f : Port → Port) : (s.modPort n f).once = s.once := rfl
@[simp] theorem modPort_free (n : Nat) (f : Port → Port) : (s.modPort n f).free = s.free := rfl

/-! ### `modBlock` -/

@[simp] theorem modBlock_pending (b : Nat) (f : Block → Block) : (s.modBlock b f).pending = s.pending := rfl
@[simp] theorem modBlock_regs (b : Nat) (f : Block → Block) : (s.modBlock b f).regs = s.regs := rfl
@[simp] theorem modBlock_stage (b : Nat) (f : Block → Block) : (s.modBlock b f).stage = s.stage := rfl
@[simp] theorem modBlock_stageWas (b : Nat) (f : Block → Block) : (s.modBlock b f).stageWas = s.stageWas := rfl
@[simp] theorem modBlock_recorded (b : Nat) (f : Block → Block) : (s.modBlock b f).recorded = s.recorded := rfl
@[simp] theorem modBlock_tick (b : Nat) (f : Block → Block) : (s.modBlock b f).tick = s.tick := rfl
@[simp] theorem modBlock_engine (b : Nat) (f : Block → Block) : (s.modBlock b f).engine = s.engine := rfl
@[simp] theorem modBlock_queues (b : Nat) (f : Block → Block) : (s.modBlock b f).queues = s.queues := rfl
@[simp] theorem modBlock_merger (b : Nat) (f : Block → Block) : (s.modBlock b f).merger = s.merger := rfl
@[simp] theorem modBlock_blockRam (b : Nat) (f : Block → Block) : (s.modBlock b f).blockRam = s.blockRam := rfl
@[simp] theorem modBlock_captured (b : Nat) (f : Block → Block) : (s.modBlock b f).captured = s.captured := rfl
@[simp] theorem modBlock_emit (b : Nat) (f : Block → Block) : (s.modBlock b f).emit = s.emit := rfl
@[simp] theorem modBlock_knots (b : Nat) (f : Block → Block) : (s.modBlock b f).knots = s.knots := rfl
@[simp] theorem modBlock_scales (b : Nat) (f : Block → Block) : (s.modBlock b f).scales = s.scales := rfl
@[simp] theorem modBlock_gateway (b : Nat) (f : Block → Block) : (s.modBlock b f).gateway = s.gateway := rfl
@[simp] theorem modBlock_cells (b : Nat) (f : Block → Block) : (s.modBlock b f).cells = s.cells := rfl
@[simp] theorem modBlock_ports (b : Nat) (f : Block → Block) : (s.modBlock b f).ports = s.ports := rfl
@[simp] theorem modBlock_rewrites (b : Nat) (f : Block → Block) : (s.modBlock b f).rewrites = s.rewrites := rfl
@[simp] theorem modBlock_binds (b : Nat) (f : Block → Block) : (s.modBlock b f).binds = s.binds := rfl
@[simp] theorem modBlock_evalQueue (b : Nat) (f : Block → Block) : (s.modBlock b f).evalQueue = s.evalQueue := rfl
@[simp] theorem modBlock_bridge (b : Nat) (f : Block → Block) : (s.modBlock b f).bridge = s.bridge := rfl
@[simp] theorem modBlock_wakeLog (b : Nat) (f : Block → Block) : (s.modBlock b f).wakeLog = s.wakeLog := rfl
@[simp] theorem modBlock_kaLog (b : Nat) (f : Block → Block) : (s.modBlock b f).kaLog = s.kaLog := rfl
@[simp] theorem modBlock_wear (b : Nat) (f : Block → Block) : (s.modBlock b f).wear = s.wear := rfl
@[simp] theorem modBlock_pair (b : Nat) (f : Block → Block) : (s.modBlock b f).pair = s.pair := rfl
@[simp] theorem modBlock_power (b : Nat) (f : Block → Block) : (s.modBlock b f).power = s.power := rfl
@[simp] theorem modBlock_hostOut (b : Nat) (f : Block → Block) : (s.modBlock b f).hostOut = s.hostOut := rfl
@[simp] theorem modBlock_hostPar (b : Nat) (f : Block → Block) : (s.modBlock b f).hostPar = s.hostPar := rfl
@[simp] theorem modBlock_hostClk (b : Nat) (f : Block → Block) : (s.modBlock b f).hostClk = s.hostClk := rfl
@[simp] theorem modBlock_crossIn (b : Nat) (f : Block → Block) : (s.modBlock b f).crossIn = s.crossIn := rfl
@[simp] theorem modBlock_crossOut (b : Nat) (f : Block → Block) : (s.modBlock b f).crossOut = s.crossOut := rfl
@[simp] theorem modBlock_once (b : Nat) (f : Block → Block) : (s.modBlock b f).once = s.once := rfl
@[simp] theorem modBlock_free (b : Nat) (f : Block → Block) : (s.modBlock b f).free = s.free := rfl

/-! ### `modBind` -/

@[simp] theorem modBind_pending (n : Nat) (f : Bind → Bind) : (s.modBind n f).pending = s.pending := rfl
@[simp] theorem modBind_regs (n : Nat) (f : Bind → Bind) : (s.modBind n f).regs = s.regs := rfl
@[simp] theorem modBind_stage (n : Nat) (f : Bind → Bind) : (s.modBind n f).stage = s.stage := rfl
@[simp] theorem modBind_stageWas (n : Nat) (f : Bind → Bind) : (s.modBind n f).stageWas = s.stageWas := rfl
@[simp] theorem modBind_recorded (n : Nat) (f : Bind → Bind) : (s.modBind n f).recorded = s.recorded := rfl
@[simp] theorem modBind_tick (n : Nat) (f : Bind → Bind) : (s.modBind n f).tick = s.tick := rfl
@[simp] theorem modBind_engine (n : Nat) (f : Bind → Bind) : (s.modBind n f).engine = s.engine := rfl
@[simp] theorem modBind_queues (n : Nat) (f : Bind → Bind) : (s.modBind n f).queues = s.queues := rfl
@[simp] theorem modBind_merger (n : Nat) (f : Bind → Bind) : (s.modBind n f).merger = s.merger := rfl
@[simp] theorem modBind_blockRam (n : Nat) (f : Bind → Bind) : (s.modBind n f).blockRam = s.blockRam := rfl
@[simp] theorem modBind_captured (n : Nat) (f : Bind → Bind) : (s.modBind n f).captured = s.captured := rfl
@[simp] theorem modBind_emit (n : Nat) (f : Bind → Bind) : (s.modBind n f).emit = s.emit := rfl
@[simp] theorem modBind_knots (n : Nat) (f : Bind → Bind) : (s.modBind n f).knots = s.knots := rfl
@[simp] theorem modBind_scales (n : Nat) (f : Bind → Bind) : (s.modBind n f).scales = s.scales := rfl
@[simp] theorem modBind_gateway (n : Nat) (f : Bind → Bind) : (s.modBind n f).gateway = s.gateway := rfl
@[simp] theorem modBind_cells (n : Nat) (f : Bind → Bind) : (s.modBind n f).cells = s.cells := rfl
@[simp] theorem modBind_ports (n : Nat) (f : Bind → Bind) : (s.modBind n f).ports = s.ports := rfl
@[simp] theorem modBind_rewrites (n : Nat) (f : Bind → Bind) : (s.modBind n f).rewrites = s.rewrites := rfl
@[simp] theorem modBind_blocks (n : Nat) (f : Bind → Bind) : (s.modBind n f).blocks = s.blocks := rfl
@[simp] theorem modBind_evalQueue (n : Nat) (f : Bind → Bind) : (s.modBind n f).evalQueue = s.evalQueue := rfl
@[simp] theorem modBind_bridge (n : Nat) (f : Bind → Bind) : (s.modBind n f).bridge = s.bridge := rfl
@[simp] theorem modBind_wakeLog (n : Nat) (f : Bind → Bind) : (s.modBind n f).wakeLog = s.wakeLog := rfl
@[simp] theorem modBind_kaLog (n : Nat) (f : Bind → Bind) : (s.modBind n f).kaLog = s.kaLog := rfl
@[simp] theorem modBind_wear (n : Nat) (f : Bind → Bind) : (s.modBind n f).wear = s.wear := rfl
@[simp] theorem modBind_pair (n : Nat) (f : Bind → Bind) : (s.modBind n f).pair = s.pair := rfl
@[simp] theorem modBind_power (n : Nat) (f : Bind → Bind) : (s.modBind n f).power = s.power := rfl
@[simp] theorem modBind_hostOut (n : Nat) (f : Bind → Bind) : (s.modBind n f).hostOut = s.hostOut := rfl
@[simp] theorem modBind_hostPar (n : Nat) (f : Bind → Bind) : (s.modBind n f).hostPar = s.hostPar := rfl
@[simp] theorem modBind_hostClk (n : Nat) (f : Bind → Bind) : (s.modBind n f).hostClk = s.hostClk := rfl
@[simp] theorem modBind_crossIn (n : Nat) (f : Bind → Bind) : (s.modBind n f).crossIn = s.crossIn := rfl
@[simp] theorem modBind_crossOut (n : Nat) (f : Bind → Bind) : (s.modBind n f).crossOut = s.crossOut := rfl
@[simp] theorem modBind_once (n : Nat) (f : Bind → Bind) : (s.modBind n f).once = s.once := rfl
@[simp] theorem modBind_free (n : Nat) (f : Bind → Bind) : (s.modBind n f).free = s.free := rfl

/-! ### `modQueue` -/

@[simp] theorem modQueue_pending (q : Nat) (f : Queue → Queue) : (s.modQueue q f).pending = s.pending := rfl
@[simp] theorem modQueue_regs (q : Nat) (f : Queue → Queue) : (s.modQueue q f).regs = s.regs := rfl
@[simp] theorem modQueue_stage (q : Nat) (f : Queue → Queue) : (s.modQueue q f).stage = s.stage := rfl
@[simp] theorem modQueue_stageWas (q : Nat) (f : Queue → Queue) : (s.modQueue q f).stageWas = s.stageWas := rfl
@[simp] theorem modQueue_recorded (q : Nat) (f : Queue → Queue) : (s.modQueue q f).recorded = s.recorded := rfl
@[simp] theorem modQueue_tick (q : Nat) (f : Queue → Queue) : (s.modQueue q f).tick = s.tick := rfl
@[simp] theorem modQueue_engine (q : Nat) (f : Queue → Queue) : (s.modQueue q f).engine = s.engine := rfl
@[simp] theorem modQueue_merger (q : Nat) (f : Queue → Queue) : (s.modQueue q f).merger = s.merger := rfl
@[simp] theorem modQueue_blockRam (q : Nat) (f : Queue → Queue) : (s.modQueue q f).blockRam = s.blockRam := rfl
@[simp] theorem modQueue_captured (q : Nat) (f : Queue → Queue) : (s.modQueue q f).captured = s.captured := rfl
@[simp] theorem modQueue_emit (q : Nat) (f : Queue → Queue) : (s.modQueue q f).emit = s.emit := rfl
@[simp] theorem modQueue_knots (q : Nat) (f : Queue → Queue) : (s.modQueue q f).knots = s.knots := rfl
@[simp] theorem modQueue_scales (q : Nat) (f : Queue → Queue) : (s.modQueue q f).scales = s.scales := rfl
@[simp] theorem modQueue_gateway (q : Nat) (f : Queue → Queue) : (s.modQueue q f).gateway = s.gateway := rfl
@[simp] theorem modQueue_cells (q : Nat) (f : Queue → Queue) : (s.modQueue q f).cells = s.cells := rfl
@[simp] theorem modQueue_ports (q : Nat) (f : Queue → Queue) : (s.modQueue q f).ports = s.ports := rfl
@[simp] theorem modQueue_rewrites (q : Nat) (f : Queue → Queue) : (s.modQueue q f).rewrites = s.rewrites := rfl
@[simp] theorem modQueue_blocks (q : Nat) (f : Queue → Queue) : (s.modQueue q f).blocks = s.blocks := rfl
@[simp] theorem modQueue_binds (q : Nat) (f : Queue → Queue) : (s.modQueue q f).binds = s.binds := rfl
@[simp] theorem modQueue_evalQueue (q : Nat) (f : Queue → Queue) : (s.modQueue q f).evalQueue = s.evalQueue := rfl
@[simp] theorem modQueue_bridge (q : Nat) (f : Queue → Queue) : (s.modQueue q f).bridge = s.bridge := rfl
@[simp] theorem modQueue_wakeLog (q : Nat) (f : Queue → Queue) : (s.modQueue q f).wakeLog = s.wakeLog := rfl
@[simp] theorem modQueue_kaLog (q : Nat) (f : Queue → Queue) : (s.modQueue q f).kaLog = s.kaLog := rfl
@[simp] theorem modQueue_wear (q : Nat) (f : Queue → Queue) : (s.modQueue q f).wear = s.wear := rfl
@[simp] theorem modQueue_pair (q : Nat) (f : Queue → Queue) : (s.modQueue q f).pair = s.pair := rfl
@[simp] theorem modQueue_power (q : Nat) (f : Queue → Queue) : (s.modQueue q f).power = s.power := rfl
@[simp] theorem modQueue_hostOut (q : Nat) (f : Queue → Queue) : (s.modQueue q f).hostOut = s.hostOut := rfl
@[simp] theorem modQueue_hostPar (q : Nat) (f : Queue → Queue) : (s.modQueue q f).hostPar = s.hostPar := rfl
@[simp] theorem modQueue_hostClk (q : Nat) (f : Queue → Queue) : (s.modQueue q f).hostClk = s.hostClk := rfl
@[simp] theorem modQueue_crossIn (q : Nat) (f : Queue → Queue) : (s.modQueue q f).crossIn = s.crossIn := rfl
@[simp] theorem modQueue_crossOut (q : Nat) (f : Queue → Queue) : (s.modQueue q f).crossOut = s.crossOut := rfl
@[simp] theorem modQueue_once (q : Nat) (f : Queue → Queue) : (s.modQueue q f).once = s.once := rfl
@[simp] theorem modQueue_free (q : Nat) (f : Queue → Queue) : (s.modQueue q f).free = s.free := rfl

/-! ### `modWindow` -/

@[simp] theorem modWindow_pending (w : Nat) (f : Window → Window) : (s.modWindow w f).pending = s.pending := rfl
@[simp] theorem modWindow_regs (w : Nat) (f : Window → Window) : (s.modWindow w f).regs = s.regs := rfl
@[simp] theorem modWindow_stage (w : Nat) (f : Window → Window) : (s.modWindow w f).stage = s.stage := rfl
@[simp] theorem modWindow_stageWas (w : Nat) (f : Window → Window) : (s.modWindow w f).stageWas = s.stageWas := rfl
@[simp] theorem modWindow_recorded (w : Nat) (f : Window → Window) : (s.modWindow w f).recorded = s.recorded := rfl
@[simp] theorem modWindow_tick (w : Nat) (f : Window → Window) : (s.modWindow w f).tick = s.tick := rfl
@[simp] theorem modWindow_engine (w : Nat) (f : Window → Window) : (s.modWindow w f).engine = s.engine := rfl
@[simp] theorem modWindow_queues (w : Nat) (f : Window → Window) : (s.modWindow w f).queues = s.queues := rfl
@[simp] theorem modWindow_merger (w : Nat) (f : Window → Window) : (s.modWindow w f).merger = s.merger := rfl
@[simp] theorem modWindow_blockRam (w : Nat) (f : Window → Window) : (s.modWindow w f).blockRam = s.blockRam := rfl
@[simp] theorem modWindow_captured (w : Nat) (f : Window → Window) : (s.modWindow w f).captured = s.captured := rfl
@[simp] theorem modWindow_emit (w : Nat) (f : Window → Window) : (s.modWindow w f).emit = s.emit := rfl
@[simp] theorem modWindow_knots (w : Nat) (f : Window → Window) : (s.modWindow w f).knots = s.knots := rfl
@[simp] theorem modWindow_scales (w : Nat) (f : Window → Window) : (s.modWindow w f).scales = s.scales := rfl
@[simp] theorem modWindow_gateway (w : Nat) (f : Window → Window) : (s.modWindow w f).gateway = s.gateway := rfl
@[simp] theorem modWindow_cells (w : Nat) (f : Window → Window) : (s.modWindow w f).cells = s.cells := rfl
@[simp] theorem modWindow_ports (w : Nat) (f : Window → Window) : (s.modWindow w f).ports = s.ports := rfl
@[simp] theorem modWindow_rewrites (w : Nat) (f : Window → Window) : (s.modWindow w f).rewrites = s.rewrites := rfl
@[simp] theorem modWindow_blocks (w : Nat) (f : Window → Window) : (s.modWindow w f).blocks = s.blocks := rfl
@[simp] theorem modWindow_binds (w : Nat) (f : Window → Window) : (s.modWindow w f).binds = s.binds := rfl
@[simp] theorem modWindow_evalQueue (w : Nat) (f : Window → Window) : (s.modWindow w f).evalQueue = s.evalQueue := rfl
@[simp] theorem modWindow_wakeLog (w : Nat) (f : Window → Window) : (s.modWindow w f).wakeLog = s.wakeLog := rfl
@[simp] theorem modWindow_kaLog (w : Nat) (f : Window → Window) : (s.modWindow w f).kaLog = s.kaLog := rfl
@[simp] theorem modWindow_wear (w : Nat) (f : Window → Window) : (s.modWindow w f).wear = s.wear := rfl
@[simp] theorem modWindow_pair (w : Nat) (f : Window → Window) : (s.modWindow w f).pair = s.pair := rfl
@[simp] theorem modWindow_power (w : Nat) (f : Window → Window) : (s.modWindow w f).power = s.power := rfl
@[simp] theorem modWindow_hostOut (w : Nat) (f : Window → Window) : (s.modWindow w f).hostOut = s.hostOut := rfl
@[simp] theorem modWindow_hostPar (w : Nat) (f : Window → Window) : (s.modWindow w f).hostPar = s.hostPar := rfl
@[simp] theorem modWindow_hostClk (w : Nat) (f : Window → Window) : (s.modWindow w f).hostClk = s.hostClk := rfl
@[simp] theorem modWindow_crossIn (w : Nat) (f : Window → Window) : (s.modWindow w f).crossIn = s.crossIn := rfl
@[simp] theorem modWindow_crossOut (w : Nat) (f : Window → Window) : (s.modWindow w f).crossOut = s.crossOut := rfl
@[simp] theorem modWindow_once (w : Nat) (f : Window → Window) : (s.modWindow w f).once = s.once := rfl
@[simp] theorem modWindow_free (w : Nat) (f : Window → Window) : (s.modWindow w f).free = s.free := rfl

/-! ### `modTick` -/

@[simp] theorem modTick_pending (f : TickUnit → TickUnit) : (s.modTick f).pending = s.pending := rfl
@[simp] theorem modTick_regs (f : TickUnit → TickUnit) : (s.modTick f).regs = s.regs := rfl
@[simp] theorem modTick_stage (f : TickUnit → TickUnit) : (s.modTick f).stage = s.stage := rfl
@[simp] theorem modTick_stageWas (f : TickUnit → TickUnit) : (s.modTick f).stageWas = s.stageWas := rfl
@[simp] theorem modTick_recorded (f : TickUnit → TickUnit) : (s.modTick f).recorded = s.recorded := rfl
@[simp] theorem modTick_engine (f : TickUnit → TickUnit) : (s.modTick f).engine = s.engine := rfl
@[simp] theorem modTick_queues (f : TickUnit → TickUnit) : (s.modTick f).queues = s.queues := rfl
@[simp] theorem modTick_merger (f : TickUnit → TickUnit) : (s.modTick f).merger = s.merger := rfl
@[simp] theorem modTick_blockRam (f : TickUnit → TickUnit) : (s.modTick f).blockRam = s.blockRam := rfl
@[simp] theorem modTick_captured (f : TickUnit → TickUnit) : (s.modTick f).captured = s.captured := rfl
@[simp] theorem modTick_emit (f : TickUnit → TickUnit) : (s.modTick f).emit = s.emit := rfl
@[simp] theorem modTick_knots (f : TickUnit → TickUnit) : (s.modTick f).knots = s.knots := rfl
@[simp] theorem modTick_scales (f : TickUnit → TickUnit) : (s.modTick f).scales = s.scales := rfl
@[simp] theorem modTick_gateway (f : TickUnit → TickUnit) : (s.modTick f).gateway = s.gateway := rfl
@[simp] theorem modTick_cells (f : TickUnit → TickUnit) : (s.modTick f).cells = s.cells := rfl
@[simp] theorem modTick_ports (f : TickUnit → TickUnit) : (s.modTick f).ports = s.ports := rfl
@[simp] theorem modTick_rewrites (f : TickUnit → TickUnit) : (s.modTick f).rewrites = s.rewrites := rfl
@[simp] theorem modTick_blocks (f : TickUnit → TickUnit) : (s.modTick f).blocks = s.blocks := rfl
@[simp] theorem modTick_binds (f : TickUnit → TickUnit) : (s.modTick f).binds = s.binds := rfl
@[simp] theorem modTick_evalQueue (f : TickUnit → TickUnit) : (s.modTick f).evalQueue = s.evalQueue := rfl
@[simp] theorem modTick_bridge (f : TickUnit → TickUnit) : (s.modTick f).bridge = s.bridge := rfl
@[simp] theorem modTick_wakeLog (f : TickUnit → TickUnit) : (s.modTick f).wakeLog = s.wakeLog := rfl
@[simp] theorem modTick_kaLog (f : TickUnit → TickUnit) : (s.modTick f).kaLog = s.kaLog := rfl
@[simp] theorem modTick_wear (f : TickUnit → TickUnit) : (s.modTick f).wear = s.wear := rfl
@[simp] theorem modTick_pair (f : TickUnit → TickUnit) : (s.modTick f).pair = s.pair := rfl
@[simp] theorem modTick_power (f : TickUnit → TickUnit) : (s.modTick f).power = s.power := rfl
@[simp] theorem modTick_hostOut (f : TickUnit → TickUnit) : (s.modTick f).hostOut = s.hostOut := rfl
@[simp] theorem modTick_hostPar (f : TickUnit → TickUnit) : (s.modTick f).hostPar = s.hostPar := rfl
@[simp] theorem modTick_hostClk (f : TickUnit → TickUnit) : (s.modTick f).hostClk = s.hostClk := rfl
@[simp] theorem modTick_crossIn (f : TickUnit → TickUnit) : (s.modTick f).crossIn = s.crossIn := rfl
@[simp] theorem modTick_crossOut (f : TickUnit → TickUnit) : (s.modTick f).crossOut = s.crossOut := rfl
@[simp] theorem modTick_once (f : TickUnit → TickUnit) : (s.modTick f).once = s.once := rfl
@[simp] theorem modTick_free (f : TickUnit → TickUnit) : (s.modTick f).free = s.free := rfl

/-! ### `modEngine` -/

@[simp] theorem modEngine_pending (f : Engine → Engine) : (s.modEngine f).pending = s.pending := rfl
@[simp] theorem modEngine_regs (f : Engine → Engine) : (s.modEngine f).regs = s.regs := rfl
@[simp] theorem modEngine_stage (f : Engine → Engine) : (s.modEngine f).stage = s.stage := rfl
@[simp] theorem modEngine_stageWas (f : Engine → Engine) : (s.modEngine f).stageWas = s.stageWas := rfl
@[simp] theorem modEngine_recorded (f : Engine → Engine) : (s.modEngine f).recorded = s.recorded := rfl
@[simp] theorem modEngine_tick (f : Engine → Engine) : (s.modEngine f).tick = s.tick := rfl
@[simp] theorem modEngine_queues (f : Engine → Engine) : (s.modEngine f).queues = s.queues := rfl
@[simp] theorem modEngine_merger (f : Engine → Engine) : (s.modEngine f).merger = s.merger := rfl
@[simp] theorem modEngine_blockRam (f : Engine → Engine) : (s.modEngine f).blockRam = s.blockRam := rfl
@[simp] theorem modEngine_captured (f : Engine → Engine) : (s.modEngine f).captured = s.captured := rfl
@[simp] theorem modEngine_emit (f : Engine → Engine) : (s.modEngine f).emit = s.emit := rfl
@[simp] theorem modEngine_knots (f : Engine → Engine) : (s.modEngine f).knots = s.knots := rfl
@[simp] theorem modEngine_scales (f : Engine → Engine) : (s.modEngine f).scales = s.scales := rfl
@[simp] theorem modEngine_gateway (f : Engine → Engine) : (s.modEngine f).gateway = s.gateway := rfl
@[simp] theorem modEngine_cells (f : Engine → Engine) : (s.modEngine f).cells = s.cells := rfl
@[simp] theorem modEngine_ports (f : Engine → Engine) : (s.modEngine f).ports = s.ports := rfl
@[simp] theorem modEngine_rewrites (f : Engine → Engine) : (s.modEngine f).rewrites = s.rewrites := rfl
@[simp] theorem modEngine_blocks (f : Engine → Engine) : (s.modEngine f).blocks = s.blocks := rfl
@[simp] theorem modEngine_binds (f : Engine → Engine) : (s.modEngine f).binds = s.binds := rfl
@[simp] theorem modEngine_evalQueue (f : Engine → Engine) : (s.modEngine f).evalQueue = s.evalQueue := rfl
@[simp] theorem modEngine_bridge (f : Engine → Engine) : (s.modEngine f).bridge = s.bridge := rfl
@[simp] theorem modEngine_wakeLog (f : Engine → Engine) : (s.modEngine f).wakeLog = s.wakeLog := rfl
@[simp] theorem modEngine_kaLog (f : Engine → Engine) : (s.modEngine f).kaLog = s.kaLog := rfl
@[simp] theorem modEngine_wear (f : Engine → Engine) : (s.modEngine f).wear = s.wear := rfl
@[simp] theorem modEngine_pair (f : Engine → Engine) : (s.modEngine f).pair = s.pair := rfl
@[simp] theorem modEngine_power (f : Engine → Engine) : (s.modEngine f).power = s.power := rfl
@[simp] theorem modEngine_hostOut (f : Engine → Engine) : (s.modEngine f).hostOut = s.hostOut := rfl
@[simp] theorem modEngine_hostPar (f : Engine → Engine) : (s.modEngine f).hostPar = s.hostPar := rfl
@[simp] theorem modEngine_hostClk (f : Engine → Engine) : (s.modEngine f).hostClk = s.hostClk := rfl
@[simp] theorem modEngine_crossIn (f : Engine → Engine) : (s.modEngine f).crossIn = s.crossIn := rfl
@[simp] theorem modEngine_crossOut (f : Engine → Engine) : (s.modEngine f).crossOut = s.crossOut := rfl
@[simp] theorem modEngine_once (f : Engine → Engine) : (s.modEngine f).once = s.once := rfl
@[simp] theorem modEngine_free (f : Engine → Engine) : (s.modEngine f).free = s.free := rfl

/-! ### `modGw` -/

@[simp] theorem modGw_pending (f : Gateway → Gateway) : (s.modGw f).pending = s.pending := rfl
@[simp] theorem modGw_regs (f : Gateway → Gateway) : (s.modGw f).regs = s.regs := rfl
@[simp] theorem modGw_stage (f : Gateway → Gateway) : (s.modGw f).stage = s.stage := rfl
@[simp] theorem modGw_stageWas (f : Gateway → Gateway) : (s.modGw f).stageWas = s.stageWas := rfl
@[simp] theorem modGw_recorded (f : Gateway → Gateway) : (s.modGw f).recorded = s.recorded := rfl
@[simp] theorem modGw_tick (f : Gateway → Gateway) : (s.modGw f).tick = s.tick := rfl
@[simp] theorem modGw_engine (f : Gateway → Gateway) : (s.modGw f).engine = s.engine := rfl
@[simp] theorem modGw_queues (f : Gateway → Gateway) : (s.modGw f).queues = s.queues := rfl
@[simp] theorem modGw_merger (f : Gateway → Gateway) : (s.modGw f).merger = s.merger := rfl
@[simp] theorem modGw_blockRam (f : Gateway → Gateway) : (s.modGw f).blockRam = s.blockRam := rfl
@[simp] theorem modGw_captured (f : Gateway → Gateway) : (s.modGw f).captured = s.captured := rfl
@[simp] theorem modGw_emit (f : Gateway → Gateway) : (s.modGw f).emit = s.emit := rfl
@[simp] theorem modGw_knots (f : Gateway → Gateway) : (s.modGw f).knots = s.knots := rfl
@[simp] theorem modGw_scales (f : Gateway → Gateway) : (s.modGw f).scales = s.scales := rfl
@[simp] theorem modGw_cells (f : Gateway → Gateway) : (s.modGw f).cells = s.cells := rfl
@[simp] theorem modGw_ports (f : Gateway → Gateway) : (s.modGw f).ports = s.ports := rfl
@[simp] theorem modGw_rewrites (f : Gateway → Gateway) : (s.modGw f).rewrites = s.rewrites := rfl
@[simp] theorem modGw_blocks (f : Gateway → Gateway) : (s.modGw f).blocks = s.blocks := rfl
@[simp] theorem modGw_binds (f : Gateway → Gateway) : (s.modGw f).binds = s.binds := rfl
@[simp] theorem modGw_evalQueue (f : Gateway → Gateway) : (s.modGw f).evalQueue = s.evalQueue := rfl
@[simp] theorem modGw_bridge (f : Gateway → Gateway) : (s.modGw f).bridge = s.bridge := rfl
@[simp] theorem modGw_wakeLog (f : Gateway → Gateway) : (s.modGw f).wakeLog = s.wakeLog := rfl
@[simp] theorem modGw_kaLog (f : Gateway → Gateway) : (s.modGw f).kaLog = s.kaLog := rfl
@[simp] theorem modGw_wear (f : Gateway → Gateway) : (s.modGw f).wear = s.wear := rfl
@[simp] theorem modGw_pair (f : Gateway → Gateway) : (s.modGw f).pair = s.pair := rfl
@[simp] theorem modGw_power (f : Gateway → Gateway) : (s.modGw f).power = s.power := rfl
@[simp] theorem modGw_hostOut (f : Gateway → Gateway) : (s.modGw f).hostOut = s.hostOut := rfl
@[simp] theorem modGw_hostPar (f : Gateway → Gateway) : (s.modGw f).hostPar = s.hostPar := rfl
@[simp] theorem modGw_hostClk (f : Gateway → Gateway) : (s.modGw f).hostClk = s.hostClk := rfl
@[simp] theorem modGw_crossIn (f : Gateway → Gateway) : (s.modGw f).crossIn = s.crossIn := rfl
@[simp] theorem modGw_crossOut (f : Gateway → Gateway) : (s.modGw f).crossOut = s.crossOut := rfl
@[simp] theorem modGw_once (f : Gateway → Gateway) : (s.modGw f).once = s.once := rfl
@[simp] theorem modGw_free (f : Gateway → Gateway) : (s.modGw f).free = s.free := rfl

/-! ### `modBridge` -/

@[simp] theorem modBridge_pending (f : Bridge → Bridge) : (s.modBridge f).pending = s.pending := rfl
@[simp] theorem modBridge_regs (f : Bridge → Bridge) : (s.modBridge f).regs = s.regs := rfl
@[simp] theorem modBridge_stage (f : Bridge → Bridge) : (s.modBridge f).stage = s.stage := rfl
@[simp] theorem modBridge_stageWas (f : Bridge → Bridge) : (s.modBridge f).stageWas = s.stageWas := rfl
@[simp] theorem modBridge_recorded (f : Bridge → Bridge) : (s.modBridge f).recorded = s.recorded := rfl
@[simp] theorem modBridge_tick (f : Bridge → Bridge) : (s.modBridge f).tick = s.tick := rfl
@[simp] theorem modBridge_engine (f : Bridge → Bridge) : (s.modBridge f).engine = s.engine := rfl
@[simp] theorem modBridge_queues (f : Bridge → Bridge) : (s.modBridge f).queues = s.queues := rfl
@[simp] theorem modBridge_merger (f : Bridge → Bridge) : (s.modBridge f).merger = s.merger := rfl
@[simp] theorem modBridge_blockRam (f : Bridge → Bridge) : (s.modBridge f).blockRam = s.blockRam := rfl
@[simp] theorem modBridge_captured (f : Bridge → Bridge) : (s.modBridge f).captured = s.captured := rfl
@[simp] theorem modBridge_emit (f : Bridge → Bridge) : (s.modBridge f).emit = s.emit := rfl
@[simp] theorem modBridge_knots (f : Bridge → Bridge) : (s.modBridge f).knots = s.knots := rfl
@[simp] theorem modBridge_scales (f : Bridge → Bridge) : (s.modBridge f).scales = s.scales := rfl
@[simp] theorem modBridge_gateway (f : Bridge → Bridge) : (s.modBridge f).gateway = s.gateway := rfl
@[simp] theorem modBridge_cells (f : Bridge → Bridge) : (s.modBridge f).cells = s.cells := rfl
@[simp] theorem modBridge_ports (f : Bridge → Bridge) : (s.modBridge f).ports = s.ports := rfl
@[simp] theorem modBridge_rewrites (f : Bridge → Bridge) : (s.modBridge f).rewrites = s.rewrites := rfl
@[simp] theorem modBridge_blocks (f : Bridge → Bridge) : (s.modBridge f).blocks = s.blocks := rfl
@[simp] theorem modBridge_binds (f : Bridge → Bridge) : (s.modBridge f).binds = s.binds := rfl
@[simp] theorem modBridge_evalQueue (f : Bridge → Bridge) : (s.modBridge f).evalQueue = s.evalQueue := rfl
@[simp] theorem modBridge_wakeLog (f : Bridge → Bridge) : (s.modBridge f).wakeLog = s.wakeLog := rfl
@[simp] theorem modBridge_kaLog (f : Bridge → Bridge) : (s.modBridge f).kaLog = s.kaLog := rfl
@[simp] theorem modBridge_wear (f : Bridge → Bridge) : (s.modBridge f).wear = s.wear := rfl
@[simp] theorem modBridge_pair (f : Bridge → Bridge) : (s.modBridge f).pair = s.pair := rfl
@[simp] theorem modBridge_power (f : Bridge → Bridge) : (s.modBridge f).power = s.power := rfl
@[simp] theorem modBridge_hostOut (f : Bridge → Bridge) : (s.modBridge f).hostOut = s.hostOut := rfl
@[simp] theorem modBridge_hostPar (f : Bridge → Bridge) : (s.modBridge f).hostPar = s.hostPar := rfl
@[simp] theorem modBridge_hostClk (f : Bridge → Bridge) : (s.modBridge f).hostClk = s.hostClk := rfl
@[simp] theorem modBridge_crossIn (f : Bridge → Bridge) : (s.modBridge f).crossIn = s.crossIn := rfl
@[simp] theorem modBridge_crossOut (f : Bridge → Bridge) : (s.modBridge f).crossOut = s.crossOut := rfl
@[simp] theorem modBridge_once (f : Bridge → Bridge) : (s.modBridge f).once = s.once := rfl
@[simp] theorem modBridge_free (f : Bridge → Bridge) : (s.modBridge f).free = s.free := rfl

/-! ### `modWear` -/

@[simp] theorem modWear_pending (f : Wear → Wear) : (s.modWear f).pending = s.pending := rfl
@[simp] theorem modWear_regs (f : Wear → Wear) : (s.modWear f).regs = s.regs := rfl
@[simp] theorem modWear_stage (f : Wear → Wear) : (s.modWear f).stage = s.stage := rfl
@[simp] theorem modWear_stageWas (f : Wear → Wear) : (s.modWear f).stageWas = s.stageWas := rfl
@[simp] theorem modWear_recorded (f : Wear → Wear) : (s.modWear f).recorded = s.recorded := rfl
@[simp] theorem modWear_tick (f : Wear → Wear) : (s.modWear f).tick = s.tick := rfl
@[simp] theorem modWear_engine (f : Wear → Wear) : (s.modWear f).engine = s.engine := rfl
@[simp] theorem modWear_queues (f : Wear → Wear) : (s.modWear f).queues = s.queues := rfl
@[simp] theorem modWear_merger (f : Wear → Wear) : (s.modWear f).merger = s.merger := rfl
@[simp] theorem modWear_blockRam (f : Wear → Wear) : (s.modWear f).blockRam = s.blockRam := rfl
@[simp] theorem modWear_captured (f : Wear → Wear) : (s.modWear f).captured = s.captured := rfl
@[simp] theorem modWear_emit (f : Wear → Wear) : (s.modWear f).emit = s.emit := rfl
@[simp] theorem modWear_knots (f : Wear → Wear) : (s.modWear f).knots = s.knots := rfl
@[simp] theorem modWear_scales (f : Wear → Wear) : (s.modWear f).scales = s.scales := rfl
@[simp] theorem modWear_gateway (f : Wear → Wear) : (s.modWear f).gateway = s.gateway := rfl
@[simp] theorem modWear_cells (f : Wear → Wear) : (s.modWear f).cells = s.cells := rfl
@[simp] theorem modWear_ports (f : Wear → Wear) : (s.modWear f).ports = s.ports := rfl
@[simp] theorem modWear_rewrites (f : Wear → Wear) : (s.modWear f).rewrites = s.rewrites := rfl
@[simp] theorem modWear_blocks (f : Wear → Wear) : (s.modWear f).blocks = s.blocks := rfl
@[simp] theorem modWear_binds (f : Wear → Wear) : (s.modWear f).binds = s.binds := rfl
@[simp] theorem modWear_evalQueue (f : Wear → Wear) : (s.modWear f).evalQueue = s.evalQueue := rfl
@[simp] theorem modWear_bridge (f : Wear → Wear) : (s.modWear f).bridge = s.bridge := rfl
@[simp] theorem modWear_wakeLog (f : Wear → Wear) : (s.modWear f).wakeLog = s.wakeLog := rfl
@[simp] theorem modWear_kaLog (f : Wear → Wear) : (s.modWear f).kaLog = s.kaLog := rfl
@[simp] theorem modWear_pair (f : Wear → Wear) : (s.modWear f).pair = s.pair := rfl
@[simp] theorem modWear_power (f : Wear → Wear) : (s.modWear f).power = s.power := rfl
@[simp] theorem modWear_hostOut (f : Wear → Wear) : (s.modWear f).hostOut = s.hostOut := rfl
@[simp] theorem modWear_hostPar (f : Wear → Wear) : (s.modWear f).hostPar = s.hostPar := rfl
@[simp] theorem modWear_hostClk (f : Wear → Wear) : (s.modWear f).hostClk = s.hostClk := rfl
@[simp] theorem modWear_crossIn (f : Wear → Wear) : (s.modWear f).crossIn = s.crossIn := rfl
@[simp] theorem modWear_crossOut (f : Wear → Wear) : (s.modWear f).crossOut = s.crossOut := rfl
@[simp] theorem modWear_once (f : Wear → Wear) : (s.modWear f).once = s.once := rfl
@[simp] theorem modWear_free (f : Wear → Wear) : (s.modWear f).free = s.free := rfl

/-! ### `modPair` -/

@[simp] theorem modPair_pending (f : Pair → Pair) : (s.modPair f).pending = s.pending := rfl
@[simp] theorem modPair_regs (f : Pair → Pair) : (s.modPair f).regs = s.regs := rfl
@[simp] theorem modPair_stage (f : Pair → Pair) : (s.modPair f).stage = s.stage := rfl
@[simp] theorem modPair_stageWas (f : Pair → Pair) : (s.modPair f).stageWas = s.stageWas := rfl
@[simp] theorem modPair_recorded (f : Pair → Pair) : (s.modPair f).recorded = s.recorded := rfl
@[simp] theorem modPair_tick (f : Pair → Pair) : (s.modPair f).tick = s.tick := rfl
@[simp] theorem modPair_engine (f : Pair → Pair) : (s.modPair f).engine = s.engine := rfl
@[simp] theorem modPair_queues (f : Pair → Pair) : (s.modPair f).queues = s.queues := rfl
@[simp] theorem modPair_merger (f : Pair → Pair) : (s.modPair f).merger = s.merger := rfl
@[simp] theorem modPair_blockRam (f : Pair → Pair) : (s.modPair f).blockRam = s.blockRam := rfl
@[simp] theorem modPair_captured (f : Pair → Pair) : (s.modPair f).captured = s.captured := rfl
@[simp] theorem modPair_emit (f : Pair → Pair) : (s.modPair f).emit = s.emit := rfl
@[simp] theorem modPair_knots (f : Pair → Pair) : (s.modPair f).knots = s.knots := rfl
@[simp] theorem modPair_scales (f : Pair → Pair) : (s.modPair f).scales = s.scales := rfl
@[simp] theorem modPair_gateway (f : Pair → Pair) : (s.modPair f).gateway = s.gateway := rfl
@[simp] theorem modPair_cells (f : Pair → Pair) : (s.modPair f).cells = s.cells := rfl
@[simp] theorem modPair_ports (f : Pair → Pair) : (s.modPair f).ports = s.ports := rfl
@[simp] theorem modPair_rewrites (f : Pair → Pair) : (s.modPair f).rewrites = s.rewrites := rfl
@[simp] theorem modPair_blocks (f : Pair → Pair) : (s.modPair f).blocks = s.blocks := rfl
@[simp] theorem modPair_binds (f : Pair → Pair) : (s.modPair f).binds = s.binds := rfl
@[simp] theorem modPair_evalQueue (f : Pair → Pair) : (s.modPair f).evalQueue = s.evalQueue := rfl
@[simp] theorem modPair_bridge (f : Pair → Pair) : (s.modPair f).bridge = s.bridge := rfl
@[simp] theorem modPair_wakeLog (f : Pair → Pair) : (s.modPair f).wakeLog = s.wakeLog := rfl
@[simp] theorem modPair_kaLog (f : Pair → Pair) : (s.modPair f).kaLog = s.kaLog := rfl
@[simp] theorem modPair_wear (f : Pair → Pair) : (s.modPair f).wear = s.wear := rfl
@[simp] theorem modPair_power (f : Pair → Pair) : (s.modPair f).power = s.power := rfl
@[simp] theorem modPair_hostOut (f : Pair → Pair) : (s.modPair f).hostOut = s.hostOut := rfl
@[simp] theorem modPair_hostPar (f : Pair → Pair) : (s.modPair f).hostPar = s.hostPar := rfl
@[simp] theorem modPair_hostClk (f : Pair → Pair) : (s.modPair f).hostClk = s.hostClk := rfl
@[simp] theorem modPair_crossIn (f : Pair → Pair) : (s.modPair f).crossIn = s.crossIn := rfl
@[simp] theorem modPair_crossOut (f : Pair → Pair) : (s.modPair f).crossOut = s.crossOut := rfl
@[simp] theorem modPair_once (f : Pair → Pair) : (s.modPair f).once = s.once := rfl
@[simp] theorem modPair_free (f : Pair → Pair) : (s.modPair f).free = s.free := rfl

/-! ### `modPower` -/

@[simp] theorem modPower_pending (f : Power → Power) : (s.modPower f).pending = s.pending := rfl
@[simp] theorem modPower_regs (f : Power → Power) : (s.modPower f).regs = s.regs := rfl
@[simp] theorem modPower_stage (f : Power → Power) : (s.modPower f).stage = s.stage := rfl
@[simp] theorem modPower_stageWas (f : Power → Power) : (s.modPower f).stageWas = s.stageWas := rfl
@[simp] theorem modPower_recorded (f : Power → Power) : (s.modPower f).recorded = s.recorded := rfl
@[simp] theorem modPower_tick (f : Power → Power) : (s.modPower f).tick = s.tick := rfl
@[simp] theorem modPower_engine (f : Power → Power) : (s.modPower f).engine = s.engine := rfl
@[simp] theorem modPower_queues (f : Power → Power) : (s.modPower f).queues = s.queues := rfl
@[simp] theorem modPower_merger (f : Power → Power) : (s.modPower f).merger = s.merger := rfl
@[simp] theorem modPower_blockRam (f : Power → Power) : (s.modPower f).blockRam = s.blockRam := rfl
@[simp] theorem modPower_captured (f : Power → Power) : (s.modPower f).captured = s.captured := rfl
@[simp] theorem modPower_emit (f : Power → Power) : (s.modPower f).emit = s.emit := rfl
@[simp] theorem modPower_knots (f : Power → Power) : (s.modPower f).knots = s.knots := rfl
@[simp] theorem modPower_scales (f : Power → Power) : (s.modPower f).scales = s.scales := rfl
@[simp] theorem modPower_gateway (f : Power → Power) : (s.modPower f).gateway = s.gateway := rfl
@[simp] theorem modPower_cells (f : Power → Power) : (s.modPower f).cells = s.cells := rfl
@[simp] theorem modPower_ports (f : Power → Power) : (s.modPower f).ports = s.ports := rfl
@[simp] theorem modPower_rewrites (f : Power → Power) : (s.modPower f).rewrites = s.rewrites := rfl
@[simp] theorem modPower_blocks (f : Power → Power) : (s.modPower f).blocks = s.blocks := rfl
@[simp] theorem modPower_binds (f : Power → Power) : (s.modPower f).binds = s.binds := rfl
@[simp] theorem modPower_evalQueue (f : Power → Power) : (s.modPower f).evalQueue = s.evalQueue := rfl
@[simp] theorem modPower_bridge (f : Power → Power) : (s.modPower f).bridge = s.bridge := rfl
@[simp] theorem modPower_wakeLog (f : Power → Power) : (s.modPower f).wakeLog = s.wakeLog := rfl
@[simp] theorem modPower_kaLog (f : Power → Power) : (s.modPower f).kaLog = s.kaLog := rfl
@[simp] theorem modPower_wear (f : Power → Power) : (s.modPower f).wear = s.wear := rfl
@[simp] theorem modPower_pair (f : Power → Power) : (s.modPower f).pair = s.pair := rfl
@[simp] theorem modPower_hostOut (f : Power → Power) : (s.modPower f).hostOut = s.hostOut := rfl
@[simp] theorem modPower_hostPar (f : Power → Power) : (s.modPower f).hostPar = s.hostPar := rfl
@[simp] theorem modPower_hostClk (f : Power → Power) : (s.modPower f).hostClk = s.hostClk := rfl
@[simp] theorem modPower_crossIn (f : Power → Power) : (s.modPower f).crossIn = s.crossIn := rfl
@[simp] theorem modPower_crossOut (f : Power → Power) : (s.modPower f).crossOut = s.crossOut := rfl
@[simp] theorem modPower_once (f : Power → Power) : (s.modPower f).once = s.once := rfl
@[simp] theorem modPower_free (f : Power → Power) : (s.modPower f).free = s.free := rfl

/-! ### `advance` -/

@[simp] theorem advance_pending (t : Nat) : (s.advance t).pending = s.pending := rfl
@[simp] theorem advance_regs (t : Nat) : (s.advance t).regs = s.regs := rfl
@[simp] theorem advance_stage (t : Nat) : (s.advance t).stage = s.stage := rfl
@[simp] theorem advance_stageWas (t : Nat) : (s.advance t).stageWas = s.stageWas := rfl
@[simp] theorem advance_recorded (t : Nat) : (s.advance t).recorded = s.recorded := rfl
@[simp] theorem advance_engine (t : Nat) : (s.advance t).engine = s.engine := rfl
@[simp] theorem advance_queues (t : Nat) : (s.advance t).queues = s.queues := rfl
@[simp] theorem advance_merger (t : Nat) : (s.advance t).merger = s.merger := rfl
@[simp] theorem advance_blockRam (t : Nat) : (s.advance t).blockRam = s.blockRam := rfl
@[simp] theorem advance_captured (t : Nat) : (s.advance t).captured = s.captured := rfl
@[simp] theorem advance_emit (t : Nat) : (s.advance t).emit = s.emit := rfl
@[simp] theorem advance_knots (t : Nat) : (s.advance t).knots = s.knots := rfl
@[simp] theorem advance_scales (t : Nat) : (s.advance t).scales = s.scales := rfl
@[simp] theorem advance_gateway (t : Nat) : (s.advance t).gateway = s.gateway := rfl
@[simp] theorem advance_cells (t : Nat) : (s.advance t).cells = s.cells := rfl
@[simp] theorem advance_ports (t : Nat) : (s.advance t).ports = s.ports := rfl
@[simp] theorem advance_rewrites (t : Nat) : (s.advance t).rewrites = s.rewrites := rfl
@[simp] theorem advance_blocks (t : Nat) : (s.advance t).blocks = s.blocks := rfl
@[simp] theorem advance_binds (t : Nat) : (s.advance t).binds = s.binds := rfl
@[simp] theorem advance_evalQueue (t : Nat) : (s.advance t).evalQueue = s.evalQueue := rfl
@[simp] theorem advance_bridge (t : Nat) : (s.advance t).bridge = s.bridge := rfl
@[simp] theorem advance_wakeLog (t : Nat) : (s.advance t).wakeLog = s.wakeLog := rfl
@[simp] theorem advance_kaLog (t : Nat) : (s.advance t).kaLog = s.kaLog := rfl
@[simp] theorem advance_wear (t : Nat) : (s.advance t).wear = s.wear := rfl
@[simp] theorem advance_pair (t : Nat) : (s.advance t).pair = s.pair := rfl
@[simp] theorem advance_power (t : Nat) : (s.advance t).power = s.power := rfl
@[simp] theorem advance_hostOut (t : Nat) : (s.advance t).hostOut = s.hostOut := rfl
@[simp] theorem advance_hostPar (t : Nat) : (s.advance t).hostPar = s.hostPar := rfl
@[simp] theorem advance_hostClk (t : Nat) : (s.advance t).hostClk = s.hostClk := rfl
@[simp] theorem advance_crossIn (t : Nat) : (s.advance t).crossIn = s.crossIn := rfl
@[simp] theorem advance_crossOut (t : Nat) : (s.advance t).crossOut = s.crossOut := rfl
@[simp] theorem advance_once (t : Nat) : (s.advance t).once = s.once := rfl
@[simp] theorem advance_free (t : Nat) : (s.advance t).free = s.free := rfl

/-! ### `advanceClk` -/

@[simp] theorem advanceClk_pending (t : Nat) : (s.advanceClk t).pending = s.pending := rfl
@[simp] theorem advanceClk_regs (t : Nat) : (s.advanceClk t).regs = s.regs := rfl
@[simp] theorem advanceClk_stage (t : Nat) : (s.advanceClk t).stage = s.stage := rfl
@[simp] theorem advanceClk_stageWas (t : Nat) : (s.advanceClk t).stageWas = s.stageWas := rfl
@[simp] theorem advanceClk_recorded (t : Nat) : (s.advanceClk t).recorded = s.recorded := rfl
@[simp] theorem advanceClk_engine (t : Nat) : (s.advanceClk t).engine = s.engine := rfl
@[simp] theorem advanceClk_queues (t : Nat) : (s.advanceClk t).queues = s.queues := rfl
@[simp] theorem advanceClk_merger (t : Nat) : (s.advanceClk t).merger = s.merger := rfl
@[simp] theorem advanceClk_blockRam (t : Nat) : (s.advanceClk t).blockRam = s.blockRam := rfl
@[simp] theorem advanceClk_captured (t : Nat) : (s.advanceClk t).captured = s.captured := rfl
@[simp] theorem advanceClk_emit (t : Nat) : (s.advanceClk t).emit = s.emit := rfl
@[simp] theorem advanceClk_knots (t : Nat) : (s.advanceClk t).knots = s.knots := rfl
@[simp] theorem advanceClk_scales (t : Nat) : (s.advanceClk t).scales = s.scales := rfl
@[simp] theorem advanceClk_gateway (t : Nat) : (s.advanceClk t).gateway = s.gateway := rfl
@[simp] theorem advanceClk_cells (t : Nat) : (s.advanceClk t).cells = s.cells := rfl
@[simp] theorem advanceClk_ports (t : Nat) : (s.advanceClk t).ports = s.ports := rfl
@[simp] theorem advanceClk_rewrites (t : Nat) : (s.advanceClk t).rewrites = s.rewrites := rfl
@[simp] theorem advanceClk_blocks (t : Nat) : (s.advanceClk t).blocks = s.blocks := rfl
@[simp] theorem advanceClk_binds (t : Nat) : (s.advanceClk t).binds = s.binds := rfl
@[simp] theorem advanceClk_evalQueue (t : Nat) : (s.advanceClk t).evalQueue = s.evalQueue := rfl
@[simp] theorem advanceClk_bridge (t : Nat) : (s.advanceClk t).bridge = s.bridge := rfl
@[simp] theorem advanceClk_wakeLog (t : Nat) : (s.advanceClk t).wakeLog = s.wakeLog := rfl
@[simp] theorem advanceClk_kaLog (t : Nat) : (s.advanceClk t).kaLog = s.kaLog := rfl
@[simp] theorem advanceClk_wear (t : Nat) : (s.advanceClk t).wear = s.wear := rfl
@[simp] theorem advanceClk_pair (t : Nat) : (s.advanceClk t).pair = s.pair := rfl
@[simp] theorem advanceClk_power (t : Nat) : (s.advanceClk t).power = s.power := rfl
@[simp] theorem advanceClk_hostOut (t : Nat) : (s.advanceClk t).hostOut = s.hostOut := rfl
@[simp] theorem advanceClk_hostPar (t : Nat) : (s.advanceClk t).hostPar = s.hostPar := rfl
@[simp] theorem advanceClk_hostClk (t : Nat) : (s.advanceClk t).hostClk = s.hostClk := rfl
@[simp] theorem advanceClk_crossIn (t : Nat) : (s.advanceClk t).crossIn = s.crossIn := rfl
@[simp] theorem advanceClk_crossOut (t : Nat) : (s.advanceClk t).crossOut = s.crossOut := rfl
@[simp] theorem advanceClk_once (t : Nat) : (s.advanceClk t).once = s.once := rfl
@[simp] theorem advanceClk_free (t : Nat) : (s.advanceClk t).free = s.free := rfl

/-! ### `crossToward` -/

@[simp] theorem crossToward_pending (b : Nat) : (s.crossToward b).pending = s.pending := rfl
@[simp] theorem crossToward_regs (b : Nat) : (s.crossToward b).regs = s.regs := rfl
@[simp] theorem crossToward_stage (b : Nat) : (s.crossToward b).stage = s.stage := rfl
@[simp] theorem crossToward_stageWas (b : Nat) : (s.crossToward b).stageWas = s.stageWas := rfl
@[simp] theorem crossToward_recorded (b : Nat) : (s.crossToward b).recorded = s.recorded := rfl
@[simp] theorem crossToward_tick (b : Nat) : (s.crossToward b).tick = s.tick := rfl
@[simp] theorem crossToward_engine (b : Nat) : (s.crossToward b).engine = s.engine := rfl
@[simp] theorem crossToward_queues (b : Nat) : (s.crossToward b).queues = s.queues := rfl
@[simp] theorem crossToward_merger (b : Nat) : (s.crossToward b).merger = s.merger := rfl
@[simp] theorem crossToward_blockRam (b : Nat) : (s.crossToward b).blockRam = s.blockRam := rfl
@[simp] theorem crossToward_captured (b : Nat) : (s.crossToward b).captured = s.captured := rfl
@[simp] theorem crossToward_emit (b : Nat) : (s.crossToward b).emit = s.emit := rfl
@[simp] theorem crossToward_knots (b : Nat) : (s.crossToward b).knots = s.knots := rfl
@[simp] theorem crossToward_scales (b : Nat) : (s.crossToward b).scales = s.scales := rfl
@[simp] theorem crossToward_gateway (b : Nat) : (s.crossToward b).gateway = s.gateway := rfl
@[simp] theorem crossToward_cells (b : Nat) : (s.crossToward b).cells = s.cells := rfl
@[simp] theorem crossToward_ports (b : Nat) : (s.crossToward b).ports = s.ports := rfl
@[simp] theorem crossToward_rewrites (b : Nat) : (s.crossToward b).rewrites = s.rewrites := rfl
@[simp] theorem crossToward_blocks (b : Nat) : (s.crossToward b).blocks = s.blocks := rfl
@[simp] theorem crossToward_binds (b : Nat) : (s.crossToward b).binds = s.binds := rfl
@[simp] theorem crossToward_evalQueue (b : Nat) : (s.crossToward b).evalQueue = s.evalQueue := rfl
@[simp] theorem crossToward_bridge (b : Nat) : (s.crossToward b).bridge = s.bridge := rfl
@[simp] theorem crossToward_wakeLog (b : Nat) : (s.crossToward b).wakeLog = s.wakeLog := rfl
@[simp] theorem crossToward_kaLog (b : Nat) : (s.crossToward b).kaLog = s.kaLog := rfl
@[simp] theorem crossToward_wear (b : Nat) : (s.crossToward b).wear = s.wear := rfl
@[simp] theorem crossToward_pair (b : Nat) : (s.crossToward b).pair = s.pair := rfl
@[simp] theorem crossToward_power (b : Nat) : (s.crossToward b).power = s.power := rfl
@[simp] theorem crossToward_hostOut (b : Nat) : (s.crossToward b).hostOut = s.hostOut := rfl
@[simp] theorem crossToward_hostPar (b : Nat) : (s.crossToward b).hostPar = s.hostPar := rfl
@[simp] theorem crossToward_hostClk (b : Nat) : (s.crossToward b).hostClk = s.hostClk := rfl
@[simp] theorem crossToward_crossOut (b : Nat) : (s.crossToward b).crossOut = s.crossOut := rfl
@[simp] theorem crossToward_once (b : Nat) : (s.crossToward b).once = s.once := rfl
@[simp] theorem crossToward_free (b : Nat) : (s.crossToward b).free = s.free := rfl

/-! ### `crossAway` -/

@[simp] theorem crossAway_pending (b : Nat) : (s.crossAway b).pending = s.pending := rfl
@[simp] theorem crossAway_regs (b : Nat) : (s.crossAway b).regs = s.regs := rfl
@[simp] theorem crossAway_stage (b : Nat) : (s.crossAway b).stage = s.stage := rfl
@[simp] theorem crossAway_stageWas (b : Nat) : (s.crossAway b).stageWas = s.stageWas := rfl
@[simp] theorem crossAway_recorded (b : Nat) : (s.crossAway b).recorded = s.recorded := rfl
@[simp] theorem crossAway_tick (b : Nat) : (s.crossAway b).tick = s.tick := rfl
@[simp] theorem crossAway_engine (b : Nat) : (s.crossAway b).engine = s.engine := rfl
@[simp] theorem crossAway_queues (b : Nat) : (s.crossAway b).queues = s.queues := rfl
@[simp] theorem crossAway_merger (b : Nat) : (s.crossAway b).merger = s.merger := rfl
@[simp] theorem crossAway_blockRam (b : Nat) : (s.crossAway b).blockRam = s.blockRam := rfl
@[simp] theorem crossAway_captured (b : Nat) : (s.crossAway b).captured = s.captured := rfl
@[simp] theorem crossAway_emit (b : Nat) : (s.crossAway b).emit = s.emit := rfl
@[simp] theorem crossAway_knots (b : Nat) : (s.crossAway b).knots = s.knots := rfl
@[simp] theorem crossAway_scales (b : Nat) : (s.crossAway b).scales = s.scales := rfl
@[simp] theorem crossAway_gateway (b : Nat) : (s.crossAway b).gateway = s.gateway := rfl
@[simp] theorem crossAway_cells (b : Nat) : (s.crossAway b).cells = s.cells := rfl
@[simp] theorem crossAway_ports (b : Nat) : (s.crossAway b).ports = s.ports := rfl
@[simp] theorem crossAway_rewrites (b : Nat) : (s.crossAway b).rewrites = s.rewrites := rfl
@[simp] theorem crossAway_blocks (b : Nat) : (s.crossAway b).blocks = s.blocks := rfl
@[simp] theorem crossAway_binds (b : Nat) : (s.crossAway b).binds = s.binds := rfl
@[simp] theorem crossAway_evalQueue (b : Nat) : (s.crossAway b).evalQueue = s.evalQueue := rfl
@[simp] theorem crossAway_bridge (b : Nat) : (s.crossAway b).bridge = s.bridge := rfl
@[simp] theorem crossAway_wakeLog (b : Nat) : (s.crossAway b).wakeLog = s.wakeLog := rfl
@[simp] theorem crossAway_kaLog (b : Nat) : (s.crossAway b).kaLog = s.kaLog := rfl
@[simp] theorem crossAway_wear (b : Nat) : (s.crossAway b).wear = s.wear := rfl
@[simp] theorem crossAway_pair (b : Nat) : (s.crossAway b).pair = s.pair := rfl
@[simp] theorem crossAway_power (b : Nat) : (s.crossAway b).power = s.power := rfl
@[simp] theorem crossAway_hostOut (b : Nat) : (s.crossAway b).hostOut = s.hostOut := rfl
@[simp] theorem crossAway_hostPar (b : Nat) : (s.crossAway b).hostPar = s.hostPar := rfl
@[simp] theorem crossAway_hostClk (b : Nat) : (s.crossAway b).hostClk = s.hostClk := rfl
@[simp] theorem crossAway_crossIn (b : Nat) : (s.crossAway b).crossIn = s.crossIn := rfl
@[simp] theorem crossAway_once (b : Nat) : (s.crossAway b).once = s.once := rfl
@[simp] theorem crossAway_free (b : Nat) : (s.crossAway b).free = s.free := rfl

/-! ### `grant` -/

@[simp] theorem grant_pending (c : Nat) : (s.grant c).pending = s.pending := rfl
@[simp] theorem grant_regs (c : Nat) : (s.grant c).regs = s.regs := rfl
@[simp] theorem grant_stage (c : Nat) : (s.grant c).stage = s.stage := rfl
@[simp] theorem grant_stageWas (c : Nat) : (s.grant c).stageWas = s.stageWas := rfl
@[simp] theorem grant_recorded (c : Nat) : (s.grant c).recorded = s.recorded := rfl
@[simp] theorem grant_tick (c : Nat) : (s.grant c).tick = s.tick := rfl
@[simp] theorem grant_engine (c : Nat) : (s.grant c).engine = s.engine := rfl
@[simp] theorem grant_queues (c : Nat) : (s.grant c).queues = s.queues := rfl
@[simp] theorem grant_merger (c : Nat) : (s.grant c).merger = s.merger := rfl
@[simp] theorem grant_blockRam (c : Nat) : (s.grant c).blockRam = s.blockRam := rfl
@[simp] theorem grant_captured (c : Nat) : (s.grant c).captured = s.captured := rfl
@[simp] theorem grant_emit (c : Nat) : (s.grant c).emit = s.emit := rfl
@[simp] theorem grant_knots (c : Nat) : (s.grant c).knots = s.knots := rfl
@[simp] theorem grant_scales (c : Nat) : (s.grant c).scales = s.scales := rfl
@[simp] theorem grant_gateway (c : Nat) : (s.grant c).gateway = s.gateway := rfl
@[simp] theorem grant_cells (c : Nat) : (s.grant c).cells = s.cells := rfl
@[simp] theorem grant_ports (c : Nat) : (s.grant c).ports = s.ports := rfl
@[simp] theorem grant_rewrites (c : Nat) : (s.grant c).rewrites = s.rewrites := rfl
@[simp] theorem grant_binds (c : Nat) : (s.grant c).binds = s.binds := rfl
@[simp] theorem grant_evalQueue (c : Nat) : (s.grant c).evalQueue = s.evalQueue := rfl
@[simp] theorem grant_bridge (c : Nat) : (s.grant c).bridge = s.bridge := rfl
@[simp] theorem grant_wakeLog (c : Nat) : (s.grant c).wakeLog = s.wakeLog := rfl
@[simp] theorem grant_kaLog (c : Nat) : (s.grant c).kaLog = s.kaLog := rfl
@[simp] theorem grant_wear (c : Nat) : (s.grant c).wear = s.wear := rfl
@[simp] theorem grant_pair (c : Nat) : (s.grant c).pair = s.pair := rfl
@[simp] theorem grant_power (c : Nat) : (s.grant c).power = s.power := rfl
@[simp] theorem grant_hostOut (c : Nat) : (s.grant c).hostOut = s.hostOut := rfl
@[simp] theorem grant_hostPar (c : Nat) : (s.grant c).hostPar = s.hostPar := rfl
@[simp] theorem grant_hostClk (c : Nat) : (s.grant c).hostClk = s.hostClk := rfl
@[simp] theorem grant_crossIn (c : Nat) : (s.grant c).crossIn = s.crossIn := rfl
@[simp] theorem grant_crossOut (c : Nat) : (s.grant c).crossOut = s.crossOut := rfl
@[simp] theorem grant_once (c : Nat) : (s.grant c).once = s.once := rfl
@[simp] theorem grant_free (c : Nat) : (s.grant c).free = s.free := rfl

/-! ### `bump` -/

@[simp] theorem bump_pending (f : Field) (k : Nat) : (s.bump f k).pending = s.pending := rfl
@[simp] theorem bump_stage (f : Field) (k : Nat) : (s.bump f k).stage = s.stage := rfl
@[simp] theorem bump_stageWas (f : Field) (k : Nat) : (s.bump f k).stageWas = s.stageWas := rfl
@[simp] theorem bump_tick (f : Field) (k : Nat) : (s.bump f k).tick = s.tick := rfl
@[simp] theorem bump_engine (f : Field) (k : Nat) : (s.bump f k).engine = s.engine := rfl
@[simp] theorem bump_queues (f : Field) (k : Nat) : (s.bump f k).queues = s.queues := rfl
@[simp] theorem bump_merger (f : Field) (k : Nat) : (s.bump f k).merger = s.merger := rfl
@[simp] theorem bump_blockRam (f : Field) (k : Nat) : (s.bump f k).blockRam = s.blockRam := rfl
@[simp] theorem bump_captured (f : Field) (k : Nat) : (s.bump f k).captured = s.captured := rfl
@[simp] theorem bump_emit (f : Field) (k : Nat) : (s.bump f k).emit = s.emit := rfl
@[simp] theorem bump_knots (f : Field) (k : Nat) : (s.bump f k).knots = s.knots := rfl
@[simp] theorem bump_scales (f : Field) (k : Nat) : (s.bump f k).scales = s.scales := rfl
@[simp] theorem bump_gateway (f : Field) (k : Nat) : (s.bump f k).gateway = s.gateway := rfl
@[simp] theorem bump_cells (f : Field) (k : Nat) : (s.bump f k).cells = s.cells := rfl
@[simp] theorem bump_ports (f : Field) (k : Nat) : (s.bump f k).ports = s.ports := rfl
@[simp] theorem bump_rewrites (f : Field) (k : Nat) : (s.bump f k).rewrites = s.rewrites := rfl
@[simp] theorem bump_blocks (f : Field) (k : Nat) : (s.bump f k).blocks = s.blocks := rfl
@[simp] theorem bump_binds (f : Field) (k : Nat) : (s.bump f k).binds = s.binds := rfl
@[simp] theorem bump_evalQueue (f : Field) (k : Nat) : (s.bump f k).evalQueue = s.evalQueue := rfl
@[simp] theorem bump_bridge (f : Field) (k : Nat) : (s.bump f k).bridge = s.bridge := rfl
@[simp] theorem bump_wakeLog (f : Field) (k : Nat) : (s.bump f k).wakeLog = s.wakeLog := rfl
@[simp] theorem bump_kaLog (f : Field) (k : Nat) : (s.bump f k).kaLog = s.kaLog := rfl
@[simp] theorem bump_wear (f : Field) (k : Nat) : (s.bump f k).wear = s.wear := rfl
@[simp] theorem bump_pair (f : Field) (k : Nat) : (s.bump f k).pair = s.pair := rfl
@[simp] theorem bump_power (f : Field) (k : Nat) : (s.bump f k).power = s.power := rfl
@[simp] theorem bump_hostOut (f : Field) (k : Nat) : (s.bump f k).hostOut = s.hostOut := rfl
@[simp] theorem bump_hostPar (f : Field) (k : Nat) : (s.bump f k).hostPar = s.hostPar := rfl
@[simp] theorem bump_hostClk (f : Field) (k : Nat) : (s.bump f k).hostClk = s.hostClk := rfl
@[simp] theorem bump_crossIn (f : Field) (k : Nat) : (s.bump f k).crossIn = s.crossIn := rfl
@[simp] theorem bump_crossOut (f : Field) (k : Nat) : (s.bump f k).crossOut = s.crossOut := rfl
@[simp] theorem bump_once (f : Field) (k : Nat) : (s.bump f k).once = s.once := rfl
@[simp] theorem bump_free (f : Field) (k : Nat) : (s.bump f k).free = s.free := rfl

/-! ### `record` -/

@[simp] theorem record_pending (f : Field) (k : Nat) : (s.record f k).pending = s.pending := rfl
@[simp] theorem record_regs (f : Field) (k : Nat) : (s.record f k).regs = s.regs := rfl
@[simp] theorem record_stage (f : Field) (k : Nat) : (s.record f k).stage = s.stage := rfl
@[simp] theorem record_stageWas (f : Field) (k : Nat) : (s.record f k).stageWas = s.stageWas := rfl
@[simp] theorem record_tick (f : Field) (k : Nat) : (s.record f k).tick = s.tick := rfl
@[simp] theorem record_engine (f : Field) (k : Nat) : (s.record f k).engine = s.engine := rfl
@[simp] theorem record_queues (f : Field) (k : Nat) : (s.record f k).queues = s.queues := rfl
@[simp] theorem record_merger (f : Field) (k : Nat) : (s.record f k).merger = s.merger := rfl
@[simp] theorem record_blockRam (f : Field) (k : Nat) : (s.record f k).blockRam = s.blockRam := rfl
@[simp] theorem record_captured (f : Field) (k : Nat) : (s.record f k).captured = s.captured := rfl
@[simp] theorem record_emit (f : Field) (k : Nat) : (s.record f k).emit = s.emit := rfl
@[simp] theorem record_knots (f : Field) (k : Nat) : (s.record f k).knots = s.knots := rfl
@[simp] theorem record_scales (f : Field) (k : Nat) : (s.record f k).scales = s.scales := rfl
@[simp] theorem record_gateway (f : Field) (k : Nat) : (s.record f k).gateway = s.gateway := rfl
@[simp] theorem record_cells (f : Field) (k : Nat) : (s.record f k).cells = s.cells := rfl
@[simp] theorem record_ports (f : Field) (k : Nat) : (s.record f k).ports = s.ports := rfl
@[simp] theorem record_rewrites (f : Field) (k : Nat) : (s.record f k).rewrites = s.rewrites := rfl
@[simp] theorem record_blocks (f : Field) (k : Nat) : (s.record f k).blocks = s.blocks := rfl
@[simp] theorem record_binds (f : Field) (k : Nat) : (s.record f k).binds = s.binds := rfl
@[simp] theorem record_evalQueue (f : Field) (k : Nat) : (s.record f k).evalQueue = s.evalQueue := rfl
@[simp] theorem record_bridge (f : Field) (k : Nat) : (s.record f k).bridge = s.bridge := rfl
@[simp] theorem record_wakeLog (f : Field) (k : Nat) : (s.record f k).wakeLog = s.wakeLog := rfl
@[simp] theorem record_kaLog (f : Field) (k : Nat) : (s.record f k).kaLog = s.kaLog := rfl
@[simp] theorem record_wear (f : Field) (k : Nat) : (s.record f k).wear = s.wear := rfl
@[simp] theorem record_pair (f : Field) (k : Nat) : (s.record f k).pair = s.pair := rfl
@[simp] theorem record_power (f : Field) (k : Nat) : (s.record f k).power = s.power := rfl
@[simp] theorem record_hostOut (f : Field) (k : Nat) : (s.record f k).hostOut = s.hostOut := rfl
@[simp] theorem record_hostPar (f : Field) (k : Nat) : (s.record f k).hostPar = s.hostPar := rfl
@[simp] theorem record_hostClk (f : Field) (k : Nat) : (s.record f k).hostClk = s.hostClk := rfl
@[simp] theorem record_crossIn (f : Field) (k : Nat) : (s.record f k).crossIn = s.crossIn := rfl
@[simp] theorem record_crossOut (f : Field) (k : Nat) : (s.record f k).crossOut = s.crossOut := rfl
@[simp] theorem record_once (f : Field) (k : Nat) : (s.record f k).once = s.once := rfl
@[simp] theorem record_free (f : Field) (k : Nat) : (s.record f k).free = s.free := rfl

/-! ### `raise` -/

@[simp] theorem raise_pending (f : Field) : (s.raise f).pending = s.pending := rfl
@[simp] theorem raise_stage (f : Field) : (s.raise f).stage = s.stage := rfl
@[simp] theorem raise_stageWas (f : Field) : (s.raise f).stageWas = s.stageWas := rfl
@[simp] theorem raise_tick (f : Field) : (s.raise f).tick = s.tick := rfl
@[simp] theorem raise_engine (f : Field) : (s.raise f).engine = s.engine := rfl
@[simp] theorem raise_queues (f : Field) : (s.raise f).queues = s.queues := rfl
@[simp] theorem raise_merger (f : Field) : (s.raise f).merger = s.merger := rfl
@[simp] theorem raise_blockRam (f : Field) : (s.raise f).blockRam = s.blockRam := rfl
@[simp] theorem raise_captured (f : Field) : (s.raise f).captured = s.captured := rfl
@[simp] theorem raise_emit (f : Field) : (s.raise f).emit = s.emit := rfl
@[simp] theorem raise_knots (f : Field) : (s.raise f).knots = s.knots := rfl
@[simp] theorem raise_scales (f : Field) : (s.raise f).scales = s.scales := rfl
@[simp] theorem raise_gateway (f : Field) : (s.raise f).gateway = s.gateway := rfl
@[simp] theorem raise_cells (f : Field) : (s.raise f).cells = s.cells := rfl
@[simp] theorem raise_ports (f : Field) : (s.raise f).ports = s.ports := rfl
@[simp] theorem raise_rewrites (f : Field) : (s.raise f).rewrites = s.rewrites := rfl
@[simp] theorem raise_blocks (f : Field) : (s.raise f).blocks = s.blocks := rfl
@[simp] theorem raise_binds (f : Field) : (s.raise f).binds = s.binds := rfl
@[simp] theorem raise_evalQueue (f : Field) : (s.raise f).evalQueue = s.evalQueue := rfl
@[simp] theorem raise_bridge (f : Field) : (s.raise f).bridge = s.bridge := rfl
@[simp] theorem raise_wakeLog (f : Field) : (s.raise f).wakeLog = s.wakeLog := rfl
@[simp] theorem raise_kaLog (f : Field) : (s.raise f).kaLog = s.kaLog := rfl
@[simp] theorem raise_wear (f : Field) : (s.raise f).wear = s.wear := rfl
@[simp] theorem raise_pair (f : Field) : (s.raise f).pair = s.pair := rfl
@[simp] theorem raise_power (f : Field) : (s.raise f).power = s.power := rfl
@[simp] theorem raise_hostOut (f : Field) : (s.raise f).hostOut = s.hostOut := rfl
@[simp] theorem raise_hostPar (f : Field) : (s.raise f).hostPar = s.hostPar := rfl
@[simp] theorem raise_hostClk (f : Field) : (s.raise f).hostClk = s.hostClk := rfl
@[simp] theorem raise_crossIn (f : Field) : (s.raise f).crossIn = s.crossIn := rfl
@[simp] theorem raise_crossOut (f : Field) : (s.raise f).crossOut = s.crossOut := rfl
@[simp] theorem raise_once (f : Field) : (s.raise f).once = s.once := rfl
@[simp] theorem raise_free (f : Field) : (s.raise f).free = s.free := rfl

/-! ### `peak` -/

@[simp] theorem peak_pending (f : Field) (v : Nat) : (s.peak f v).pending = s.pending := rfl
@[simp] theorem peak_stage (f : Field) (v : Nat) : (s.peak f v).stage = s.stage := rfl
@[simp] theorem peak_stageWas (f : Field) (v : Nat) : (s.peak f v).stageWas = s.stageWas := rfl
@[simp] theorem peak_tick (f : Field) (v : Nat) : (s.peak f v).tick = s.tick := rfl
@[simp] theorem peak_engine (f : Field) (v : Nat) : (s.peak f v).engine = s.engine := rfl
@[simp] theorem peak_queues (f : Field) (v : Nat) : (s.peak f v).queues = s.queues := rfl
@[simp] theorem peak_merger (f : Field) (v : Nat) : (s.peak f v).merger = s.merger := rfl
@[simp] theorem peak_blockRam (f : Field) (v : Nat) : (s.peak f v).blockRam = s.blockRam := rfl
@[simp] theorem peak_captured (f : Field) (v : Nat) : (s.peak f v).captured = s.captured := rfl
@[simp] theorem peak_emit (f : Field) (v : Nat) : (s.peak f v).emit = s.emit := rfl
@[simp] theorem peak_knots (f : Field) (v : Nat) : (s.peak f v).knots = s.knots := rfl
@[simp] theorem peak_scales (f : Field) (v : Nat) : (s.peak f v).scales = s.scales := rfl
@[simp] theorem peak_gateway (f : Field) (v : Nat) : (s.peak f v).gateway = s.gateway := rfl
@[simp] theorem peak_cells (f : Field) (v : Nat) : (s.peak f v).cells = s.cells := rfl
@[simp] theorem peak_ports (f : Field) (v : Nat) : (s.peak f v).ports = s.ports := rfl
@[simp] theorem peak_rewrites (f : Field) (v : Nat) : (s.peak f v).rewrites = s.rewrites := rfl
@[simp] theorem peak_blocks (f : Field) (v : Nat) : (s.peak f v).blocks = s.blocks := rfl
@[simp] theorem peak_binds (f : Field) (v : Nat) : (s.peak f v).binds = s.binds := rfl
@[simp] theorem peak_evalQueue (f : Field) (v : Nat) : (s.peak f v).evalQueue = s.evalQueue := rfl
@[simp] theorem peak_bridge (f : Field) (v : Nat) : (s.peak f v).bridge = s.bridge := rfl
@[simp] theorem peak_wakeLog (f : Field) (v : Nat) : (s.peak f v).wakeLog = s.wakeLog := rfl
@[simp] theorem peak_kaLog (f : Field) (v : Nat) : (s.peak f v).kaLog = s.kaLog := rfl
@[simp] theorem peak_wear (f : Field) (v : Nat) : (s.peak f v).wear = s.wear := rfl
@[simp] theorem peak_pair (f : Field) (v : Nat) : (s.peak f v).pair = s.pair := rfl
@[simp] theorem peak_power (f : Field) (v : Nat) : (s.peak f v).power = s.power := rfl
@[simp] theorem peak_hostOut (f : Field) (v : Nat) : (s.peak f v).hostOut = s.hostOut := rfl
@[simp] theorem peak_hostPar (f : Field) (v : Nat) : (s.peak f v).hostPar = s.hostPar := rfl
@[simp] theorem peak_hostClk (f : Field) (v : Nat) : (s.peak f v).hostClk = s.hostClk := rfl
@[simp] theorem peak_crossIn (f : Field) (v : Nat) : (s.peak f v).crossIn = s.crossIn := rfl
@[simp] theorem peak_crossOut (f : Field) (v : Nat) : (s.peak f v).crossOut = s.crossOut := rfl
@[simp] theorem peak_once (f : Field) (v : Nat) : (s.peak f v).once = s.once := rfl
@[simp] theorem peak_free (f : Field) (v : Nat) : (s.peak f v).free = s.free := rfl

/-! ### `watch` -/

@[simp] theorem watch_pending (q k : Nat) : (s.watch q k).pending = s.pending := rfl
@[simp] theorem watch_regs (q k : Nat) : (s.watch q k).regs = s.regs := rfl
@[simp] theorem watch_stage (q k : Nat) : (s.watch q k).stage = s.stage := rfl
@[simp] theorem watch_stageWas (q k : Nat) : (s.watch q k).stageWas = s.stageWas := rfl
@[simp] theorem watch_recorded (q k : Nat) : (s.watch q k).recorded = s.recorded := rfl
@[simp] theorem watch_tick (q k : Nat) : (s.watch q k).tick = s.tick := rfl
@[simp] theorem watch_engine (q k : Nat) : (s.watch q k).engine = s.engine := rfl
@[simp] theorem watch_merger (q k : Nat) : (s.watch q k).merger = s.merger := rfl
@[simp] theorem watch_blockRam (q k : Nat) : (s.watch q k).blockRam = s.blockRam := rfl
@[simp] theorem watch_captured (q k : Nat) : (s.watch q k).captured = s.captured := rfl
@[simp] theorem watch_emit (q k : Nat) : (s.watch q k).emit = s.emit := rfl
@[simp] theorem watch_knots (q k : Nat) : (s.watch q k).knots = s.knots := rfl
@[simp] theorem watch_scales (q k : Nat) : (s.watch q k).scales = s.scales := rfl
@[simp] theorem watch_gateway (q k : Nat) : (s.watch q k).gateway = s.gateway := rfl
@[simp] theorem watch_cells (q k : Nat) : (s.watch q k).cells = s.cells := rfl
@[simp] theorem watch_ports (q k : Nat) : (s.watch q k).ports = s.ports := rfl
@[simp] theorem watch_rewrites (q k : Nat) : (s.watch q k).rewrites = s.rewrites := rfl
@[simp] theorem watch_blocks (q k : Nat) : (s.watch q k).blocks = s.blocks := rfl
@[simp] theorem watch_binds (q k : Nat) : (s.watch q k).binds = s.binds := rfl
@[simp] theorem watch_evalQueue (q k : Nat) : (s.watch q k).evalQueue = s.evalQueue := rfl
@[simp] theorem watch_bridge (q k : Nat) : (s.watch q k).bridge = s.bridge := rfl
@[simp] theorem watch_wakeLog (q k : Nat) : (s.watch q k).wakeLog = s.wakeLog := rfl
@[simp] theorem watch_kaLog (q k : Nat) : (s.watch q k).kaLog = s.kaLog := rfl
@[simp] theorem watch_wear (q k : Nat) : (s.watch q k).wear = s.wear := rfl
@[simp] theorem watch_pair (q k : Nat) : (s.watch q k).pair = s.pair := rfl
@[simp] theorem watch_power (q k : Nat) : (s.watch q k).power = s.power := rfl
@[simp] theorem watch_hostOut (q k : Nat) : (s.watch q k).hostOut = s.hostOut := rfl
@[simp] theorem watch_hostPar (q k : Nat) : (s.watch q k).hostPar = s.hostPar := rfl
@[simp] theorem watch_hostClk (q k : Nat) : (s.watch q k).hostClk = s.hostClk := rfl
@[simp] theorem watch_crossIn (q k : Nat) : (s.watch q k).crossIn = s.crossIn := rfl
@[simp] theorem watch_crossOut (q k : Nat) : (s.watch q k).crossOut = s.crossOut := rfl
@[simp] theorem watch_once (q k : Nat) : (s.watch q k).once = s.once := rfl
@[simp] theorem watch_free (q k : Nat) : (s.watch q k).free = s.free := rfl

/-! ### `post` -/

@[simp] theorem post_pending (cls code unit level : Nat) (body : List Nat) : (s.post cls code unit body level).pending = s.pending := rfl
@[simp] theorem post_regs (cls code unit level : Nat) (body : List Nat) : (s.post cls code unit body level).regs = s.regs := rfl
@[simp] theorem post_stage (cls code unit level : Nat) (body : List Nat) : (s.post cls code unit body level).stage = s.stage := rfl
@[simp] theorem post_stageWas (cls code unit level : Nat) (body : List Nat) : (s.post cls code unit body level).stageWas = s.stageWas := rfl
@[simp] theorem post_recorded (cls code unit level : Nat) (body : List Nat) : (s.post cls code unit body level).recorded = s.recorded := rfl
@[simp] theorem post_tick (cls code unit level : Nat) (body : List Nat) : (s.post cls code unit body level).tick = s.tick := rfl
@[simp] theorem post_engine (cls code unit level : Nat) (body : List Nat) : (s.post cls code unit body level).engine = s.engine := rfl
@[simp] theorem post_queues (cls code unit level : Nat) (body : List Nat) : (s.post cls code unit body level).queues = s.queues := rfl
@[simp] theorem post_blockRam (cls code unit level : Nat) (body : List Nat) : (s.post cls code unit body level).blockRam = s.blockRam := rfl
@[simp] theorem post_captured (cls code unit level : Nat) (body : List Nat) : (s.post cls code unit body level).captured = s.captured := rfl
@[simp] theorem post_emit (cls code unit level : Nat) (body : List Nat) : (s.post cls code unit body level).emit = s.emit := rfl
@[simp] theorem post_knots (cls code unit level : Nat) (body : List Nat) : (s.post cls code unit body level).knots = s.knots := rfl
@[simp] theorem post_scales (cls code unit level : Nat) (body : List Nat) : (s.post cls code unit body level).scales = s.scales := rfl
@[simp] theorem post_gateway (cls code unit level : Nat) (body : List Nat) : (s.post cls code unit body level).gateway = s.gateway := rfl
@[simp] theorem post_cells (cls code unit level : Nat) (body : List Nat) : (s.post cls code unit body level).cells = s.cells := rfl
@[simp] theorem post_ports (cls code unit level : Nat) (body : List Nat) : (s.post cls code unit body level).ports = s.ports := rfl
@[simp] theorem post_rewrites (cls code unit level : Nat) (body : List Nat) : (s.post cls code unit body level).rewrites = s.rewrites := rfl
@[simp] theorem post_blocks (cls code unit level : Nat) (body : List Nat) : (s.post cls code unit body level).blocks = s.blocks := rfl
@[simp] theorem post_binds (cls code unit level : Nat) (body : List Nat) : (s.post cls code unit body level).binds = s.binds := rfl
@[simp] theorem post_evalQueue (cls code unit level : Nat) (body : List Nat) : (s.post cls code unit body level).evalQueue = s.evalQueue := rfl
@[simp] theorem post_bridge (cls code unit level : Nat) (body : List Nat) : (s.post cls code unit body level).bridge = s.bridge := rfl
@[simp] theorem post_wakeLog (cls code unit level : Nat) (body : List Nat) : (s.post cls code unit body level).wakeLog = s.wakeLog := rfl
@[simp] theorem post_kaLog (cls code unit level : Nat) (body : List Nat) : (s.post cls code unit body level).kaLog = s.kaLog := rfl
@[simp] theorem post_wear (cls code unit level : Nat) (body : List Nat) : (s.post cls code unit body level).wear = s.wear := rfl
@[simp] theorem post_pair (cls code unit level : Nat) (body : List Nat) : (s.post cls code unit body level).pair = s.pair := rfl
@[simp] theorem post_power (cls code unit level : Nat) (body : List Nat) : (s.post cls code unit body level).power = s.power := rfl
@[simp] theorem post_hostOut (cls code unit level : Nat) (body : List Nat) : (s.post cls code unit body level).hostOut = s.hostOut := rfl
@[simp] theorem post_hostPar (cls code unit level : Nat) (body : List Nat) : (s.post cls code unit body level).hostPar = s.hostPar := rfl
@[simp] theorem post_hostClk (cls code unit level : Nat) (body : List Nat) : (s.post cls code unit body level).hostClk = s.hostClk := rfl
@[simp] theorem post_crossIn (cls code unit level : Nat) (body : List Nat) : (s.post cls code unit body level).crossIn = s.crossIn := rfl
@[simp] theorem post_crossOut (cls code unit level : Nat) (body : List Nat) : (s.post cls code unit body level).crossOut = s.crossOut := rfl
@[simp] theorem post_once (cls code unit level : Nat) (body : List Nat) : (s.post cls code unit body level).once = s.once := rfl
@[simp] theorem post_free (cls code unit level : Nat) (body : List Nat) : (s.post cls code unit body level).free = s.free := rfl

/-! ### `draw` -/

@[simp] theorem draw_fst : s.draw.1 = Config.freeValue s.free := rfl
@[simp] theorem draw_free : s.draw.2.free = s.free + 1 := rfl
@[simp] theorem draw_pending : s.draw.2.pending = s.pending := rfl
@[simp] theorem draw_regs : s.draw.2.regs = s.regs := rfl
@[simp] theorem draw_stage : s.draw.2.stage = s.stage := rfl
@[simp] theorem draw_stageWas : s.draw.2.stageWas = s.stageWas := rfl
@[simp] theorem draw_recorded : s.draw.2.recorded = s.recorded := rfl
@[simp] theorem draw_tick : s.draw.2.tick = s.tick := rfl
@[simp] theorem draw_engine : s.draw.2.engine = s.engine := rfl
@[simp] theorem draw_queues : s.draw.2.queues = s.queues := rfl
@[simp] theorem draw_merger : s.draw.2.merger = s.merger := rfl
@[simp] theorem draw_blockRam : s.draw.2.blockRam = s.blockRam := rfl
@[simp] theorem draw_captured : s.draw.2.captured = s.captured := rfl
@[simp] theorem draw_emit : s.draw.2.emit = s.emit := rfl
@[simp] theorem draw_knots : s.draw.2.knots = s.knots := rfl
@[simp] theorem draw_scales : s.draw.2.scales = s.scales := rfl
@[simp] theorem draw_gateway : s.draw.2.gateway = s.gateway := rfl
@[simp] theorem draw_cells : s.draw.2.cells = s.cells := rfl
@[simp] theorem draw_ports : s.draw.2.ports = s.ports := rfl
@[simp] theorem draw_rewrites : s.draw.2.rewrites = s.rewrites := rfl
@[simp] theorem draw_blocks : s.draw.2.blocks = s.blocks := rfl
@[simp] theorem draw_binds : s.draw.2.binds = s.binds := rfl
@[simp] theorem draw_evalQueue : s.draw.2.evalQueue = s.evalQueue := rfl
@[simp] theorem draw_bridge : s.draw.2.bridge = s.bridge := rfl
@[simp] theorem draw_wakeLog : s.draw.2.wakeLog = s.wakeLog := rfl
@[simp] theorem draw_kaLog : s.draw.2.kaLog = s.kaLog := rfl
@[simp] theorem draw_wear : s.draw.2.wear = s.wear := rfl
@[simp] theorem draw_pair : s.draw.2.pair = s.pair := rfl
@[simp] theorem draw_power : s.draw.2.power = s.power := rfl
@[simp] theorem draw_hostOut : s.draw.2.hostOut = s.hostOut := rfl
@[simp] theorem draw_hostPar : s.draw.2.hostPar = s.hostPar := rfl
@[simp] theorem draw_hostClk : s.draw.2.hostClk = s.hostClk := rfl
@[simp] theorem draw_crossIn : s.draw.2.crossIn = s.crossIn := rfl
@[simp] theorem draw_crossOut : s.draw.2.crossOut = s.crossOut := rfl
@[simp] theorem draw_once : s.draw.2.once = s.once := rfl

/-! ### The field that an update changes -/

@[simp] theorem modTick_tick (f : TickUnit → TickUnit) : (s.modTick f).tick = f s.tick := rfl
@[simp] theorem modEngine_engine (f : Engine → Engine) : (s.modEngine f).engine = f s.engine := rfl
@[simp] theorem modGw_gateway (f : Gateway → Gateway) : (s.modGw f).gateway = f s.gateway := rfl
@[simp] theorem modBridge_bridge (f : Bridge → Bridge) : (s.modBridge f).bridge = f s.bridge := rfl
@[simp] theorem modWear_wear (f : Wear → Wear) : (s.modWear f).wear = f s.wear := rfl
@[simp] theorem modPair_pair (f : Pair → Pair) : (s.modPair f).pair = f s.pair := rfl
@[simp] theorem modPower_power (f : Power → Power) : (s.modPower f).power = f s.power := rfl
@[simp] theorem advance_time (t : Nat) : (s.advance t).tick.time = max s.tick.time t := rfl
@[simp] theorem wr_regs (f : Field) (v : Nat) :
    (s.wr f v).regs = Sparse.put f.reset s.regs f.key (v % f.size) := rfl
@[simp] theorem stageWr_stage (f : Field) (v : Nat) :
    (s.stageWr f v).stage = Sparse.put (s.rd f) s.stage f.key (v % f.size) := rfl

end State
end Sys2Proof.Machine
end

