-- ==== Sys2Proof/Laws/Reads.lean ====
section
/-! SUPPORT. For each named update of the state, the reads that it leaves alone. -/

namespace Sys2Proof.Machine
namespace State

variable (s : State)


/-! ### `wr` -/

@[simp] theorem cell_wr (i : Nat) (f : Field) (v : Nat) : (s.wr f v).cell i = s.cell i := rfl
@[simp] theorem port_wr (i : Nat) (f : Field) (v : Nat) : (s.wr f v).port i = s.port i := rfl
@[simp] theorem block_wr (i : Nat) (f : Field) (v : Nat) : (s.wr f v).block i = s.block i := rfl
@[simp] theorem bind_wr (i : Nat) (f : Field) (v : Nat) : (s.wr f v).bind i = s.bind i := rfl
@[simp] theorem queue_wr (i : Nat) (f : Field) (v : Nat) : (s.wr f v).queue i = s.queue i := rfl
@[simp] theorem window_wr (i : Nat) (f : Field) (v : Nat) : (s.wr f v).window i = s.window i := rfl
@[simp] theorem ram_wr (i j : Nat) (f : Field) (v : Nat) : (s.wr f v).ram i j = s.ram i j := rfl
@[simp] theorem capWord_wr (i : Nat) (f : Field) (v : Nat) : (s.wr f v).capWord i = s.capWord i := rfl
@[simp] theorem emitWord_wr (i : Nat) (f : Field) (v : Nat) : (s.wr f v).emitWord i = s.emitWord i := rfl
@[simp] theorem knotWord_wr (i j : Nat) (f : Field) (v : Nat) : (s.wr f v).knotWord i j = s.knotWord i j := rfl
@[simp] theorem scaleWord_wr (i j : Nat) (f : Field) (v : Nat) : (s.wr f v).scaleWord i j = s.scaleWord i j := rfl

/-! ### `stageWr` -/

@[simp] theorem rd_stageWr (g : Field) (f : Field) (v : Nat) : (s.stageWr f v).rd g = s.rd g := rfl
@[simp] theorem flag_stageWr (g : Field) (f : Field) (v : Nat) : (s.stageWr f v).flag g = s.flag g := rfl
@[simp] theorem rdK_stageWr (i e : Nat) (f : Field) (v : Nat) : (s.stageWr f v).rdK i e = s.rdK i e := rfl
@[simp] theorem cell_stageWr (i : Nat) (f : Field) (v : Nat) : (s.stageWr f v).cell i = s.cell i := rfl
@[simp] theorem port_stageWr (i : Nat) (f : Field) (v : Nat) : (s.stageWr f v).port i = s.port i := rfl
@[simp] theorem block_stageWr (i : Nat) (f : Field) (v : Nat) : (s.stageWr f v).block i = s.block i := rfl
@[simp] theorem bind_stageWr (i : Nat) (f : Field) (v : Nat) : (s.stageWr f v).bind i = s.bind i := rfl
@[simp] theorem queue_stageWr (i : Nat) (f : Field) (v : Nat) : (s.stageWr f v).queue i = s.queue i := rfl
@[simp] theorem window_stageWr (i : Nat) (f : Field) (v : Nat) : (s.stageWr f v).window i = s.window i := rfl
@[simp] theorem ram_stageWr (i j : Nat) (f : Field) (v : Nat) : (s.stageWr f v).ram i j = s.ram i j := rfl
@[simp] theorem capWord_stageWr (i : Nat) (f : Field) (v : Nat) : (s.stageWr f v).capWord i = s.capWord i := rfl
@[simp] theorem emitWord_stageWr (i : Nat) (f : Field) (v : Nat) : (s.stageWr f v).emitWord i = s.emitWord i := rfl
@[simp] theorem knotWord_stageWr (i j : Nat) (f : Field) (v : Nat) : (s.stageWr f v).knotWord i j = s.knotWord i j := rfl
@[simp] theorem scaleWord_stageWr (i j : Nat) (f : Field) (v : Nat) : (s.stageWr f v).scaleWord i j = s.scaleWord i j := rfl

/-! ### `wrK` -/

@[simp] theorem cell_wrK (i : Nat) (k v d : Nat) : (s.wrK k v d).cell i = s.cell i := rfl
@[simp] theorem port_wrK (i : Nat) (k v d : Nat) : (s.wrK k v d).port i = s.port i := rfl
@[simp] theorem block_wrK (i : Nat) (k v d : Nat) : (s.wrK k v d).block i = s.block i := rfl
@[simp] theorem bind_wrK (i : Nat) (k v d : Nat) : (s.wrK k v d).bind i = s.bind i := rfl
@[simp] theorem queue_wrK (i : Nat) (k v d : Nat) : (s.wrK k v d).queue i = s.queue i := rfl
@[simp] theorem window_wrK (i : Nat) (k v d : Nat) : (s.wrK k v d).window i = s.window i := rfl
@[simp] theorem ram_wrK (i j : Nat) (k v d : Nat) : (s.wrK k v d).ram i j = s.ram i j := rfl
@[simp] theorem capWord_wrK (i : Nat) (k v d : Nat) : (s.wrK k v d).capWord i = s.capWord i := rfl
@[simp] theorem emitWord_wrK (i : Nat) (k v d : Nat) : (s.wrK k v d).emitWord i = s.emitWord i := rfl
@[simp] theorem knotWord_wrK (i j : Nat) (k v d : Nat) : (s.wrK k v d).knotWord i j = s.knotWord i j := rfl
@[simp] theorem scaleWord_wrK (i j : Nat) (k v d : Nat) : (s.wrK k v d).scaleWord i j = s.scaleWord i j := rfl

/-! ### `stageK` -/

@[simp] theorem rd_stageK (g : Field) (k v d : Nat) : (s.stageK k v d).rd g = s.rd g := rfl
@[simp] theorem flag_stageK (g : Field) (k v d : Nat) : (s.stageK k v d).flag g = s.flag g := rfl
@[simp] theorem rdK_stageK (i e : Nat) (k v d : Nat) : (s.stageK k v d).rdK i e = s.rdK i e := rfl
@[simp] theorem cell_stageK (i : Nat) (k v d : Nat) : (s.stageK k v d).cell i = s.cell i := rfl
@[simp] theorem port_stageK (i : Nat) (k v d : Nat) : (s.stageK k v d).port i = s.port i := rfl
@[simp] theorem block_stageK (i : Nat) (k v d : Nat) : (s.stageK k v d).block i = s.block i := rfl
@[simp] theorem bind_stageK (i : Nat) (k v d : Nat) : (s.stageK k v d).bind i = s.bind i := rfl
@[simp] theorem queue_stageK (i : Nat) (k v d : Nat) : (s.stageK k v d).queue i = s.queue i := rfl
@[simp] theorem window_stageK (i : Nat) (k v d : Nat) : (s.stageK k v d).window i = s.window i := rfl
@[simp] theorem ram_stageK (i j : Nat) (k v d : Nat) : (s.stageK k v d).ram i j = s.ram i j := rfl
@[simp] theorem capWord_stageK (i : Nat) (k v d : Nat) : (s.stageK k v d).capWord i = s.capWord i := rfl
@[simp] theorem emitWord_stageK (i : Nat) (k v d : Nat) : (s.stageK k v d).emitWord i = s.emitWord i := rfl
@[simp] theorem knotWord_stageK (i j : Nat) (k v d : Nat) : (s.stageK k v d).knotWord i j = s.knotWord i j := rfl
@[simp] theorem scaleWord_stageK (i j : Nat) (k v d : Nat) : (s.stageK k v d).scaleWord i j = s.scaleWord i j := rfl

/-! ### `modCell` -/

@[simp] theorem rd_modCell (g : Field) (c : Nat) (f : Cell → Cell) : (s.modCell c f).rd g = s.rd g := rfl
@[simp] theorem flag_modCell (g : Field) (c : Nat) (f : Cell → Cell) : (s.modCell c f).flag g = s.flag g := rfl
@[simp] theorem rdK_modCell (i e : Nat) (c : Nat) (f : Cell → Cell) : (s.modCell c f).rdK i e = s.rdK i e := rfl
@[simp] theorem staged_modCell (g : Field) (c : Nat) (f : Cell → Cell) : (s.modCell c f).staged g = s.staged g := rfl
@[simp] theorem port_modCell (i : Nat) (c : Nat) (f : Cell → Cell) : (s.modCell c f).port i = s.port i := rfl
@[simp] theorem block_modCell (i : Nat) (c : Nat) (f : Cell → Cell) : (s.modCell c f).block i = s.block i := rfl
@[simp] theorem bind_modCell (i : Nat) (c : Nat) (f : Cell → Cell) : (s.modCell c f).bind i = s.bind i := rfl
@[simp] theorem queue_modCell (i : Nat) (c : Nat) (f : Cell → Cell) : (s.modCell c f).queue i = s.queue i := rfl
@[simp] theorem window_modCell (i : Nat) (c : Nat) (f : Cell → Cell) : (s.modCell c f).window i = s.window i := rfl
@[simp] theorem ram_modCell (i j : Nat) (c : Nat) (f : Cell → Cell) : (s.modCell c f).ram i j = s.ram i j := rfl
@[simp] theorem capWord_modCell (i : Nat) (c : Nat) (f : Cell → Cell) : (s.modCell c f).capWord i = s.capWord i := rfl
@[simp] theorem emitWord_modCell (i : Nat) (c : Nat) (f : Cell → Cell) : (s.modCell c f).emitWord i = s.emitWord i := rfl
@[simp] theorem knotWord_modCell (i j : Nat) (c : Nat) (f : Cell → Cell) : (s.modCell c f).knotWord i j = s.knotWord i j := rfl
@[simp] theorem scaleWord_modCell (i j : Nat) (c : Nat) (f : Cell → Cell) : (s.modCell c f).scaleWord i j = s.scaleWord i j := rfl

/-! ### `modPort` -/

@[simp] theorem rd_modPort (g : Field) (n : Nat) (f : Port → Port) : (s.modPort n f).rd g = s.rd g := rfl
@[simp] theorem flag_modPort (g : Field) (n : Nat) (f : Port → Port) : (s.modPort n f).flag g = s.flag g := rfl
@[simp] theorem rdK_modPort (i e : Nat) (n : Nat) (f : Port → Port) : (s.modPort n f).rdK i e = s.rdK i e := rfl
@[simp] theorem staged_modPort (g : Field) (n : Nat) (f : Port → Port) : (s.modPort n f).staged g = s.staged g := rfl
@[simp] theorem cell_modPort (i : Nat) (n : Nat) (f : Port → Port) : (s.modPort n f).cell i = s.cell i := rfl
@[simp] theorem block_modPort (i : Nat) (n : Nat) (f : Port → Port) : (s.modPort n f).block i = s.block i := rfl
@[simp] theorem bind_modPort (i : Nat) (n : Nat) (f : Port → Port) : (s.modPort n f).bind i = s.bind i := rfl
@[simp] theorem queue_modPort (i : Nat) (n : Nat) (f : Port → Port) : (s.modPort n f).queue i = s.queue i := rfl
@[simp] theorem window_modPort (i : Nat) (n : Nat) (f : Port → Port) : (s.modPort n f).window i = s.window i := rfl
@[simp] theorem ram_modPort (i j : Nat) (n : Nat) (f : Port → Port) : (s.modPort n f).ram i j = s.ram i j := rfl
@[simp] theorem capWord_modPort (i : Nat) (n : Nat) (f : Port → Port) : (s.modPort n f).capWord i = s.capWord i := rfl
@[simp] theorem emitWord_modPort (i : Nat) (n : Nat) (f : Port → Port) : (s.modPort n f).emitWord i = s.emitWord i := rfl
@[simp] theorem knotWord_modPort (i j : Nat) (n : Nat) (f : Port → Port) : (s.modPort n f).knotWord i j = s.knotWord i j := rfl
@[simp] theorem scaleWord_modPort (i j : Nat) (n : Nat) (f : Port → Port) : (s.modPort n f).scaleWord i j = s.scaleWord i j := rfl

/-! ### `modBlock` -/

@[simp] theorem rd_modBlock (g : Field) (b : Nat) (f : Block → Block) : (s.modBlock b f).rd g = s.rd g := rfl
@[simp] theorem flag_modBlock (g : Field) (b : Nat) (f : Block → Block) : (s.modBlock b f).flag g = s.flag g := rfl
@[simp] theorem rdK_modBlock (i e : Nat) (b : Nat) (f : Block → Block) : (s.modBlock b f).rdK i e = s.rdK i e := rfl
@[simp] theorem staged_modBlock (g : Field) (b : Nat) (f : Block → Block) : (s.modBlock b f).staged g = s.staged g := rfl
@[simp] theorem cell_modBlock (i : Nat) (b : Nat) (f : Block → Block) : (s.modBlock b f).cell i = s.cell i := rfl
@[simp] theorem port_modBlock (i : Nat) (b : Nat) (f : Block → Block) : (s.modBlock b f).port i = s.port i := rfl
@[simp] theorem bind_modBlock (i : Nat) (b : Nat) (f : Block → Block) : (s.modBlock b f).bind i = s.bind i := rfl
@[simp] theorem queue_modBlock (i : Nat) (b : Nat) (f : Block → Block) : (s.modBlock b f).queue i = s.queue i := rfl
@[simp] theorem window_modBlock (i : Nat) (b : Nat) (f : Block → Block) : (s.modBlock b f).window i = s.window i := rfl
@[simp] theorem ram_modBlock (i j : Nat) (b : Nat) (f : Block → Block) : (s.modBlock b f).ram i j = s.ram i j := rfl
@[simp] theorem capWord_modBlock (i : Nat) (b : Nat) (f : Block → Block) : (s.modBlock b f).capWord i = s.capWord i := rfl
@[simp] theorem emitWord_modBlock (i : Nat) (b : Nat) (f : Block → Block) : (s.modBlock b f).emitWord i = s.emitWord i := rfl
@[simp] theorem knotWord_modBlock (i j : Nat) (b : Nat) (f : Block → Block) : (s.modBlock b f).knotWord i j = s.knotWord i j := rfl
@[simp] theorem scaleWord_modBlock (i j : Nat) (b : Nat) (f : Block → Block) : (s.modBlock b f).scaleWord i j = s.scaleWord i j := rfl

/-! ### `modBind` -/

@[simp] theorem rd_modBind (g : Field) (n : Nat) (f : Bind → Bind) : (s.modBind n f).rd g = s.rd g := rfl
@[simp] theorem flag_modBind (g : Field) (n : Nat) (f : Bind → Bind) : (s.modBind n f).flag g = s.flag g := rfl
@[simp] theorem rdK_modBind (i e : Nat) (n : Nat) (f : Bind → Bind) : (s.modBind n f).rdK i e = s.rdK i e := rfl
@[simp] theorem staged_modBind (g : Field) (n : Nat) (f : Bind → Bind) : (s.modBind n f).staged g = s.staged g := rfl
@[simp] theorem cell_modBind (i : Nat) (n : Nat) (f : Bind → Bind) : (s.modBind n f).cell i = s.cell i := rfl
@[simp] theorem port_modBind (i : Nat) (n : Nat) (f : Bind → Bind) : (s.modBind n f).port i = s.port i := rfl
@[simp] theorem block_modBind (i : Nat) (n : Nat) (f : Bind → Bind) : (s.modBind n f).block i = s.block i := rfl
@[simp] theorem queue_modBind (i : Nat) (n : Nat) (f : Bind → Bind) : (s.modBind n f).queue i = s.queue i := rfl
@[simp] theorem window_modBind (i : Nat) (n : Nat) (f : Bind → Bind) : (s.modBind n f).window i = s.window i := rfl
@[simp] theorem ram_modBind (i j : Nat) (n : Nat) (f : Bind → Bind) : (s.modBind n f).ram i j = s.ram i j := rfl
@[simp] theorem capWord_modBind (i : Nat) (n : Nat) (f : Bind → Bind) : (s.modBind n f).capWord i = s.capWord i := rfl
@[simp] theorem emitWord_modBind (i : Nat) (n : Nat) (f : Bind → Bind) : (s.modBind n f).emitWord i = s.emitWord i := rfl
@[simp] theorem knotWord_modBind (i j : Nat) (n : Nat) (f : Bind → Bind) : (s.modBind n f).knotWord i j = s.knotWord i j := rfl
@[simp] theorem scaleWord_modBind (i j : Nat) (n : Nat) (f : Bind → Bind) : (s.modBind n f).scaleWord i j = s.scaleWord i j := rfl

/-! ### `modQueue` -/

@[simp] theorem rd_modQueue (g : Field) (q : Nat) (f : Queue → Queue) : (s.modQueue q f).rd g = s.rd g := rfl
@[simp] theorem flag_modQueue (g : Field) (q : Nat) (f : Queue → Queue) : (s.modQueue q f).flag g = s.flag g := rfl
@[simp] theorem rdK_modQueue (i e : Nat) (q : Nat) (f : Queue → Queue) : (s.modQueue q f).rdK i e = s.rdK i e := rfl
@[simp] theorem staged_modQueue (g : Field) (q : Nat) (f : Queue → Queue) : (s.modQueue q f).staged g = s.staged g := rfl
@[simp] theorem cell_modQueue (i : Nat) (q : Nat) (f : Queue → Queue) : (s.modQueue q f).cell i = s.cell i := rfl
@[simp] theorem port_modQueue (i : Nat) (q : Nat) (f : Queue → Queue) : (s.modQueue q f).port i = s.port i := rfl
@[simp] theorem block_modQueue (i : Nat) (q : Nat) (f : Queue → Queue) : (s.modQueue q f).block i = s.block i := rfl
@[simp] theorem bind_modQueue (i : Nat) (q : Nat) (f : Queue → Queue) : (s.modQueue q f).bind i = s.bind i := rfl
@[simp] theorem window_modQueue (i : Nat) (q : Nat) (f : Queue → Queue) : (s.modQueue q f).window i = s.window i := rfl
@[simp] theorem ram_modQueue (i j : Nat) (q : Nat) (f : Queue → Queue) : (s.modQueue q f).ram i j = s.ram i j := rfl
@[simp] theorem capWord_modQueue (i : Nat) (q : Nat) (f : Queue → Queue) : (s.modQueue q f).capWord i = s.capWord i := rfl
@[simp] theorem emitWord_modQueue (i : Nat) (q : Nat) (f : Queue → Queue) : (s.modQueue q f).emitWord i = s.emitWord i := rfl
@[simp] theorem knotWord_modQueue (i j : Nat) (q : Nat) (f : Queue → Queue) : (s.modQueue q f).knotWord i j = s.knotWord i j := rfl
@[simp] theorem scaleWord_modQueue (i j : Nat) (q : Nat) (f : Queue → Queue) : (s.modQueue q f).scaleWord i j = s.scaleWord i j := rfl

/-! ### `modWindow` -/

@[simp] theorem rd_modWindow (g : Field) (w : Nat) (f : Window → Window) : (s.modWindow w f).rd g = s.rd g := rfl
@[simp] theorem flag_modWindow (g : Field) (w : Nat) (f : Window → Window) : (s.modWindow w f).flag g = s.flag g := rfl
@[simp] theorem rdK_modWindow (i e : Nat) (w : Nat) (f : Window → Window) : (s.modWindow w f).rdK i e = s.rdK i e := rfl
@[simp] theorem staged_modWindow (g : Field) (w : Nat) (f : Window → Window) : (s.modWindow w f).staged g = s.staged g := rfl
@[simp] theorem cell_modWindow (i : Nat) (w : Nat) (f : Window → Window) : (s.modWindow w f).cell i = s.cell i := rfl
@[simp] theorem port_modWindow (i : Nat) (w : Nat) (f : Window → Window) : (s.modWindow w f).port i = s.port i := rfl
@[simp] theorem block_modWindow (i : Nat) (w : Nat) (f : Window → Window) : (s.modWindow w f).block i = s.block i := rfl
@[simp] theorem bind_modWindow (i : Nat) (w : Nat) (f : Window → Window) : (s.modWindow w f).bind i = s.bind i := rfl
@[simp] theorem queue_modWindow (i : Nat) (w : Nat) (f : Window → Window) : (s.modWindow w f).queue i = s.queue i := rfl
@[simp] theorem ram_modWindow (i j : Nat) (w : Nat) (f : Window → Window) : (s.modWindow w f).ram i j = s.ram i j := rfl
@[simp] theorem capWord_modWindow (i : Nat) (w : Nat) (f : Window → Window) : (s.modWindow w f).capWord i = s.capWord i := rfl
@[simp] theorem emitWord_modWindow (i : Nat) (w : Nat) (f : Window → Window) : (s.modWindow w f).emitWord i = s.emitWord i := rfl
@[simp] theorem knotWord_modWindow (i j : Nat) (w : Nat) (f : Window → Window) : (s.modWindow w f).knotWord i j = s.knotWord i j := rfl
@[simp] theorem scaleWord_modWindow (i j : Nat) (w : Nat) (f : Window → Window) : (s.modWindow w f).scaleWord i j = s.scaleWord i j := rfl

/-! ### `modTick` -/

@[simp] theorem rd_modTick (g : Field) (f : TickUnit → TickUnit) : (s.modTick f).rd g = s.rd g := rfl
@[simp] theorem flag_modTick (g : Field) (f : TickUnit → TickUnit) : (s.modTick f).flag g = s.flag g := rfl
@[simp] theorem rdK_modTick (i e : Nat) (f : TickUnit → TickUnit) : (s.modTick f).rdK i e = s.rdK i e := rfl
@[simp] theorem staged_modTick (g : Field) (f : TickUnit → TickUnit) : (s.modTick f).staged g = s.staged g := rfl
@[simp] theorem cell_modTick (i : Nat) (f : TickUnit → TickUnit) : (s.modTick f).cell i = s.cell i := rfl
@[simp] theorem port_modTick (i : Nat) (f : TickUnit → TickUnit) : (s.modTick f).port i = s.port i := rfl
@[simp] theorem block_modTick (i : Nat) (f : TickUnit → TickUnit) : (s.modTick f).block i = s.block i := rfl
@[simp] theorem bind_modTick (i : Nat) (f : TickUnit → TickUnit) : (s.modTick f).bind i = s.bind i := rfl
@[simp] theorem queue_modTick (i : Nat) (f : TickUnit → TickUnit) : (s.modTick f).queue i = s.queue i := rfl
@[simp] theorem window_modTick (i : Nat) (f : TickUnit → TickUnit) : (s.modTick f).window i = s.window i := rfl
@[simp] theorem ram_modTick (i j : Nat) (f : TickUnit → TickUnit) : (s.modTick f).ram i j = s.ram i j := rfl
@[simp] theorem capWord_modTick (i : Nat) (f : TickUnit → TickUnit) : (s.modTick f).capWord i = s.capWord i := rfl
@[simp] theorem emitWord_modTick (i : Nat) (f : TickUnit → TickUnit) : (s.modTick f).emitWord i = s.emitWord i := rfl
@[simp] theorem knotWord_modTick (i j : Nat) (f : TickUnit → TickUnit) : (s.modTick f).knotWord i j = s.knotWord i j := rfl
@[simp] theorem scaleWord_modTick (i j : Nat) (f : TickUnit → TickUnit) : (s.modTick f).scaleWord i j = s.scaleWord i j := rfl

/-! ### `modEngine` -/

@[simp] theorem rd_modEngine (g : Field) (f : Engine → Engine) : (s.modEngine f).rd g = s.rd g := rfl
@[simp] theorem flag_modEngine (g : Field) (f : Engine → Engine) : (s.modEngine f).flag g = s.flag g := rfl
@[simp] theorem rdK_modEngine (i e : Nat) (f : Engine → Engine) : (s.modEngine f).rdK i e = s.rdK i e := rfl
@[simp] theorem staged_modEngine (g : Field) (f : Engine → Engine) : (s.modEngine f).staged g = s.staged g := rfl
@[simp] theorem cell_modEngine (i : Nat) (f : Engine → Engine) : (s.modEngine f).cell i = s.cell i := rfl
@[simp] theorem port_modEngine (i : Nat) (f : Engine → Engine) : (s.modEngine f).port i = s.port i := rfl
@[simp] theorem block_modEngine (i : Nat) (f : Engine → Engine) : (s.modEngine f).block i = s.block i := rfl
@[simp] theorem bind_modEngine (i : Nat) (f : Engine → Engine) : (s.modEngine f).bind i = s.bind i := rfl
@[simp] theorem queue_modEngine (i : Nat) (f : Engine → Engine) : (s.modEngine f).queue i = s.queue i := rfl
@[simp] theorem window_modEngine (i : Nat) (f : Engine → Engine) : (s.modEngine f).window i = s.window i := rfl
@[simp] theorem ram_modEngine (i j : Nat) (f : Engine → Engine) : (s.modEngine f).ram i j = s.ram i j := rfl
@[simp] theorem capWord_modEngine (i : Nat) (f : Engine → Engine) : (s.modEngine f).capWord i = s.capWord i := rfl
@[simp] theorem emitWord_modEngine (i : Nat) (f : Engine → Engine) : (s.modEngine f).emitWord i = s.emitWord i := rfl
@[simp] theorem knotWord_modEngine (i j : Nat) (f : Engine → Engine) : (s.modEngine f).knotWord i j = s.knotWord i j := rfl
@[simp] theorem scaleWord_modEngine (i j : Nat) (f : Engine → Engine) : (s.modEngine f).scaleWord i j = s.scaleWord i j := rfl

/-! ### `modGw` -/

@[simp] theorem rd_modGw (g : Field) (f : Gateway → Gateway) : (s.modGw f).rd g = s.rd g := rfl
@[simp] theorem flag_modGw (g : Field) (f : Gateway → Gateway) : (s.modGw f).flag g = s.flag g := rfl
@[simp] theorem rdK_modGw (i e : Nat) (f : Gateway → Gateway) : (s.modGw f).rdK i e = s.rdK i e := rfl
@[simp] theorem staged_modGw (g : Field) (f : Gateway → Gateway) : (s.modGw f).staged g = s.staged g := rfl
@[simp] theorem cell_modGw (i : Nat) (f : Gateway → Gateway) : (s.modGw f).cell i = s.cell i := rfl
@[simp] theorem port_modGw (i : Nat) (f : Gateway → Gateway) : (s.modGw f).port i = s.port i := rfl
@[simp] theorem block_modGw (i : Nat) (f : Gateway → Gateway) : (s.modGw f).block i = s.block i := rfl
@[simp] theorem bind_modGw (i : Nat) (f : Gateway → Gateway) : (s.modGw f).bind i = s.bind i := rfl
@[simp] theorem queue_modGw (i : Nat) (f : Gateway → Gateway) : (s.modGw f).queue i = s.queue i := rfl
@[simp] theorem window_modGw (i : Nat) (f : Gateway → Gateway) : (s.modGw f).window i = s.window i := rfl
@[simp] theorem ram_modGw (i j : Nat) (f : Gateway → Gateway) : (s.modGw f).ram i j = s.ram i j := rfl
@[simp] theorem capWord_modGw (i : Nat) (f : Gateway → Gateway) : (s.modGw f).capWord i = s.capWord i := rfl
@[simp] theorem emitWord_modGw (i : Nat) (f : Gateway → Gateway) : (s.modGw f).emitWord i = s.emitWord i := rfl
@[simp] theorem knotWord_modGw (i j : Nat) (f : Gateway → Gateway) : (s.modGw f).knotWord i j = s.knotWord i j := rfl
@[simp] theorem scaleWord_modGw (i j : Nat) (f : Gateway → Gateway) : (s.modGw f).scaleWord i j = s.scaleWord i j := rfl

/-! ### `modBridge` -/

@[simp] theorem rd_modBridge (g : Field) (f : Bridge → Bridge) : (s.modBridge f).rd g = s.rd g := rfl
@[simp] theorem flag_modBridge (g : Field) (f : Bridge → Bridge) : (s.modBridge f).flag g = s.flag g := rfl
@[simp] theorem rdK_modBridge (i e : Nat) (f : Bridge → Bridge) : (s.modBridge f).rdK i e = s.rdK i e := rfl
@[simp] theorem staged_modBridge (g : Field) (f : Bridge → Bridge) : (s.modBridge f).staged g = s.staged g := rfl
@[simp] theorem cell_modBridge (i : Nat) (f : Bridge → Bridge) : (s.modBridge f).cell i = s.cell i := rfl
@[simp] theorem port_modBridge (i : Nat) (f : Bridge → Bridge) : (s.modBridge f).port i = s.port i := rfl
@[simp] theorem block_modBridge (i : Nat) (f : Bridge → Bridge) : (s.modBridge f).block i = s.block i := rfl
@[simp] theorem bind_modBridge (i : Nat) (f : Bridge → Bridge) : (s.modBridge f).bind i = s.bind i := rfl
@[simp] theorem queue_modBridge (i : Nat) (f : Bridge → Bridge) : (s.modBridge f).queue i = s.queue i := rfl
@[simp] theorem ram_modBridge (i j : Nat) (f : Bridge → Bridge) : (s.modBridge f).ram i j = s.ram i j := rfl
@[simp] theorem capWord_modBridge (i : Nat) (f : Bridge → Bridge) : (s.modBridge f).capWord i = s.capWord i := rfl
@[simp] theorem emitWord_modBridge (i : Nat) (f : Bridge → Bridge) : (s.modBridge f).emitWord i = s.emitWord i := rfl
@[simp] theorem knotWord_modBridge (i j : Nat) (f : Bridge → Bridge) : (s.modBridge f).knotWord i j = s.knotWord i j := rfl
@[simp] theorem scaleWord_modBridge (i j : Nat) (f : Bridge → Bridge) : (s.modBridge f).scaleWord i j = s.scaleWord i j := rfl

/-! ### `modWear` -/

@[simp] theorem rd_modWear (g : Field) (f : Wear → Wear) : (s.modWear f).rd g = s.rd g := rfl
@[simp] theorem flag_modWear (g : Field) (f : Wear → Wear) : (s.modWear f).flag g = s.flag g := rfl
@[simp] theorem rdK_modWear (i e : Nat) (f : Wear → Wear) : (s.modWear f).rdK i e = s.rdK i e := rfl
@[simp] theorem staged_modWear (g : Field) (f : Wear → Wear) : (s.modWear f).staged g = s.staged g := rfl
@[simp] theorem cell_modWear (i : Nat) (f : Wear → Wear) : (s.modWear f).cell i = s.cell i := rfl
@[simp] theorem port_modWear (i : Nat) (f : Wear → Wear) : (s.modWear f).port i = s.port i := rfl
@[simp] theorem block_modWear (i : Nat) (f : Wear → Wear) : (s.modWear f).block i = s.block i := rfl
@[simp] theorem bind_modWear (i : Nat) (f : Wear → Wear) : (s.modWear f).bind i = s.bind i := rfl
@[simp] theorem queue_modWear (i : Nat) (f : Wear → Wear) : (s.modWear f).queue i = s.queue i := rfl
@[simp] theorem window_modWear (i : Nat) (f : Wear → Wear) : (s.modWear f).window i = s.window i := rfl
@[simp] theorem ram_modWear (i j : Nat) (f : Wear → Wear) : (s.modWear f).ram i j = s.ram i j := rfl
@[simp] theorem capWord_modWear (i : Nat) (f : Wear → Wear) : (s.modWear f).capWord i = s.capWord i := rfl
@[simp] theorem emitWord_modWear (i : Nat) (f : Wear → Wear) : (s.modWear f).emitWord i = s.emitWord i := rfl
@[simp] theorem knotWord_modWear (i j : Nat) (f : Wear → Wear) : (s.modWear f).knotWord i j = s.knotWord i j := rfl
@[simp] theorem scaleWord_modWear (i j : Nat) (f : Wear → Wear) : (s.modWear f).scaleWord i j = s.scaleWord i j := rfl

/-! ### `modPair` -/

@[simp] theorem rd_modPair (g : Field) (f : Pair → Pair) : (s.modPair f).rd g = s.rd g := rfl
@[simp] theorem flag_modPair (g : Field) (f : Pair → Pair) : (s.modPair f).flag g = s.flag g := rfl
@[simp] theorem rdK_modPair (i e : Nat) (f : Pair → Pair) : (s.modPair f).rdK i e = s.rdK i e := rfl
@[simp] theorem staged_modPair (g : Field) (f : Pair → Pair) : (s.modPair f).staged g = s.staged g := rfl
@[simp] theorem cell_modPair (i : Nat) (f : Pair → Pair) : (s.modPair f).cell i = s.cell i := rfl
@[simp] theorem port_modPair (i : Nat) (f : Pair → Pair) : (s.modPair f).port i = s.port i := rfl
@[simp] theorem block_modPair (i : Nat) (f : Pair → Pair) : (s.modPair f).block i = s.block i := rfl
@[simp] theorem bind_modPair (i : Nat) (f : Pair → Pair) : (s.modPair f).bind i = s.bind i := rfl
@[simp] theorem queue_modPair (i : Nat) (f : Pair → Pair) : (s.modPair f).queue i = s.queue i := rfl
@[simp] theorem window_modPair (i : Nat) (f : Pair → Pair) : (s.modPair f).window i = s.window i := rfl
@[simp] theorem ram_modPair (i j : Nat) (f : Pair → Pair) : (s.modPair f).ram i j = s.ram i j := rfl
@[simp] theorem capWord_modPair (i : Nat) (f : Pair → Pair) : (s.modPair f).capWord i = s.capWord i := rfl
@[simp] theorem emitWord_modPair (i : Nat) (f : Pair → Pair) : (s.modPair f).emitWord i = s.emitWord i := rfl
@[simp] theorem knotWord_modPair (i j : Nat) (f : Pair → Pair) : (s.modPair f).knotWord i j = s.knotWord i j := rfl
@[simp] theorem scaleWord_modPair (i j : Nat) (f : Pair → Pair) : (s.modPair f).scaleWord i j = s.scaleWord i j := rfl

/-! ### `modPower` -/

@[simp] theorem rd_modPower (g : Field) (f : Power → Power) : (s.modPower f).rd g = s.rd g := rfl
@[simp] theorem flag_modPower (g : Field) (f : Power → Power) : (s.modPower f).flag g = s.flag g := rfl
@[simp] theorem rdK_modPower (i e : Nat) (f : Power → Power) : (s.modPower f).rdK i e = s.rdK i e := rfl
@[simp] theorem staged_modPower (g : Field) (f : Power → Power) : (s.modPower f).staged g = s.staged g := rfl
@[simp] theorem cell_modPower (i : Nat) (f : Power → Power) : (s.modPower f).cell i = s.cell i := rfl
@[simp] theorem port_modPower (i : Nat) (f : Power → Power) : (s.modPower f).port i = s.port i := rfl
@[simp] theorem block_modPower (i : Nat) (f : Power → Power) : (s.modPower f).block i = s.block i := rfl
@[simp] theorem bind_modPower (i : Nat) (f : Power → Power) : (s.modPower f).bind i = s.bind i := rfl
@[simp] theorem queue_modPower (i : Nat) (f : Power → Power) : (s.modPower f).queue i = s.queue i := rfl
@[simp] theorem window_modPower (i : Nat) (f : Power → Power) : (s.modPower f).window i = s.window i := rfl
@[simp] theorem ram_modPower (i j : Nat) (f : Power → Power) : (s.modPower f).ram i j = s.ram i j := rfl
@[simp] theorem capWord_modPower (i : Nat) (f : Power → Power) : (s.modPower f).capWord i = s.capWord i := rfl
@[simp] theorem emitWord_modPower (i : Nat) (f : Power → Power) : (s.modPower f).emitWord i = s.emitWord i := rfl
@[simp] theorem knotWord_modPower (i j : Nat) (f : Power → Power) : (s.modPower f).knotWord i j = s.knotWord i j := rfl
@[simp] theorem scaleWord_modPower (i j : Nat) (f : Power → Power) : (s.modPower f).scaleWord i j = s.scaleWord i j := rfl

/-! ### `advance` -/

@[simp] theorem rd_advance (g : Field) (t : Nat) : (s.advance t).rd g = s.rd g := rfl
@[simp] theorem flag_advance (g : Field) (t : Nat) : (s.advance t).flag g = s.flag g := rfl
@[simp] theorem rdK_advance (i e : Nat) (t : Nat) : (s.advance t).rdK i e = s.rdK i e := rfl
@[simp] theorem staged_advance (g : Field) (t : Nat) : (s.advance t).staged g = s.staged g := rfl
@[simp] theorem cell_advance (i : Nat) (t : Nat) : (s.advance t).cell i = s.cell i := rfl
@[simp] theorem port_advance (i : Nat) (t : Nat) : (s.advance t).port i = s.port i := rfl
@[simp] theorem block_advance (i : Nat) (t : Nat) : (s.advance t).block i = s.block i := rfl
@[simp] theorem bind_advance (i : Nat) (t : Nat) : (s.advance t).bind i = s.bind i := rfl
@[simp] theorem queue_advance (i : Nat) (t : Nat) : (s.advance t).queue i = s.queue i := rfl
@[simp] theorem window_advance (i : Nat) (t : Nat) : (s.advance t).window i = s.window i := rfl
@[simp] theorem ram_advance (i j : Nat) (t : Nat) : (s.advance t).ram i j = s.ram i j := rfl
@[simp] theorem capWord_advance (i : Nat) (t : Nat) : (s.advance t).capWord i = s.capWord i := rfl
@[simp] theorem emitWord_advance (i : Nat) (t : Nat) : (s.advance t).emitWord i = s.emitWord i := rfl
@[simp] theorem knotWord_advance (i j : Nat) (t : Nat) : (s.advance t).knotWord i j = s.knotWord i j := rfl
@[simp] theorem scaleWord_advance (i j : Nat) (t : Nat) : (s.advance t).scaleWord i j = s.scaleWord i j := rfl

/-! ### `advanceClk` -/

@[simp] theorem rd_advanceClk (g : Field) (t : Nat) : (s.advanceClk t).rd g = s.rd g := rfl
@[simp] theorem flag_advanceClk (g : Field) (t : Nat) : (s.advanceClk t).flag g = s.flag g := rfl
@[simp] theorem rdK_advanceClk (i e : Nat) (t : Nat) : (s.advanceClk t).rdK i e = s.rdK i e := rfl
@[simp] theorem staged_advanceClk (g : Field) (t : Nat) : (s.advanceClk t).staged g = s.staged g := rfl
@[simp] theorem cell_advanceClk (i : Nat) (t : Nat) : (s.advanceClk t).cell i = s.cell i := rfl
@[simp] theorem port_advanceClk (i : Nat) (t : Nat) : (s.advanceClk t).port i = s.port i := rfl
@[simp] theorem block_advanceClk (i : Nat) (t : Nat) : (s.advanceClk t).block i = s.block i := rfl
@[simp] theorem bind_advanceClk (i : Nat) (t : Nat) : (s.advanceClk t).bind i = s.bind i := rfl
@[simp] theorem queue_advanceClk (i : Nat) (t : Nat) : (s.advanceClk t).queue i = s.queue i := rfl
@[simp] theorem window_advanceClk (i : Nat) (t : Nat) : (s.advanceClk t).window i = s.window i := rfl
@[simp] theorem ram_advanceClk (i j : Nat) (t : Nat) : (s.advanceClk t).ram i j = s.ram i j := rfl
@[simp] theorem capWord_advanceClk (i : Nat) (t : Nat) : (s.advanceClk t).capWord i = s.capWord i := rfl
@[simp] theorem emitWord_advanceClk (i : Nat) (t : Nat) : (s.advanceClk t).emitWord i = s.emitWord i := rfl
@[simp] theorem knotWord_advanceClk (i j : Nat) (t : Nat) : (s.advanceClk t).knotWord i j = s.knotWord i j := rfl
@[simp] theorem scaleWord_advanceClk (i j : Nat) (t : Nat) : (s.advanceClk t).scaleWord i j = s.scaleWord i j := rfl

/-! ### `crossToward` -/

@[simp] theorem rd_crossToward (g : Field) (b : Nat) : (s.crossToward b).rd g = s.rd g := rfl
@[simp] theorem flag_crossToward (g : Field) (b : Nat) : (s.crossToward b).flag g = s.flag g := rfl
@[simp] theorem rdK_crossToward (i e : Nat) (b : Nat) : (s.crossToward b).rdK i e = s.rdK i e := rfl
@[simp] theorem staged_crossToward (g : Field) (b : Nat) : (s.crossToward b).staged g = s.staged g := rfl
@[simp] theorem cell_crossToward (i : Nat) (b : Nat) : (s.crossToward b).cell i = s.cell i := rfl
@[simp] theorem port_crossToward (i : Nat) (b : Nat) : (s.crossToward b).port i = s.port i := rfl
@[simp] theorem block_crossToward (i : Nat) (b : Nat) : (s.crossToward b).block i = s.block i := rfl
@[simp] theorem bind_crossToward (i : Nat) (b : Nat) : (s.crossToward b).bind i = s.bind i := rfl
@[simp] theorem queue_crossToward (i : Nat) (b : Nat) : (s.crossToward b).queue i = s.queue i := rfl
@[simp] theorem window_crossToward (i : Nat) (b : Nat) : (s.crossToward b).window i = s.window i := rfl
@[simp] theorem ram_crossToward (i j : Nat) (b : Nat) : (s.crossToward b).ram i j = s.ram i j := rfl
@[simp] theorem capWord_crossToward (i : Nat) (b : Nat) : (s.crossToward b).capWord i = s.capWord i := rfl
@[simp] theorem emitWord_crossToward (i : Nat) (b : Nat) : (s.crossToward b).emitWord i = s.emitWord i := rfl
@[simp] theorem knotWord_crossToward (i j : Nat) (b : Nat) : (s.crossToward b).knotWord i j = s.knotWord i j := rfl
@[simp] theorem scaleWord_crossToward (i j : Nat) (b : Nat) : (s.crossToward b).scaleWord i j = s.scaleWord i j := rfl

/-! ### `crossAway` -/

@[simp] theorem rd_crossAway (g : Field) (b : Nat) : (s.crossAway b).rd g = s.rd g := rfl
@[simp] theorem flag_crossAway (g : Field) (b : Nat) : (s.crossAway b).flag g = s.flag g := rfl
@[simp] theorem rdK_crossAway (i e : Nat) (b : Nat) : (s.crossAway b).rdK i e = s.rdK i e := rfl
@[simp] theorem staged_crossAway (g : Field) (b : Nat) : (s.crossAway b).staged g = s.staged g := rfl
@[simp] theorem cell_crossAway (i : Nat) (b : Nat) : (s.crossAway b).cell i = s.cell i := rfl
@[simp] theorem port_crossAway (i : Nat) (b : Nat) : (s.crossAway b).port i = s.port i := rfl
@[simp] theorem block_crossAway (i : Nat) (b : Nat) : (s.crossAway b).block i = s.block i := rfl
@[simp] theorem bind_crossAway (i : Nat) (b : Nat) : (s.crossAway b).bind i = s.bind i := rfl
@[simp] theorem queue_crossAway (i : Nat) (b : Nat) : (s.crossAway b).queue i = s.queue i := rfl
@[simp] theorem window_crossAway (i : Nat) (b : Nat) : (s.crossAway b).window i = s.window i := rfl
@[simp] theorem ram_crossAway (i j : Nat) (b : Nat) : (s.crossAway b).ram i j = s.ram i j := rfl
@[simp] theorem capWord_crossAway (i : Nat) (b : Nat) : (s.crossAway b).capWord i = s.capWord i := rfl
@[simp] theorem emitWord_crossAway (i : Nat) (b : Nat) : (s.crossAway b).emitWord i = s.emitWord i := rfl
@[simp] theorem knotWord_crossAway (i j : Nat) (b : Nat) : (s.crossAway b).knotWord i j = s.knotWord i j := rfl
@[simp] theorem scaleWord_crossAway (i j : Nat) (b : Nat) : (s.crossAway b).scaleWord i j = s.scaleWord i j := rfl

/-! ### `grant` -/

@[simp] theorem rd_grant (g : Field) (c : Nat) : (s.grant c).rd g = s.rd g := rfl
@[simp] theorem flag_grant (g : Field) (c : Nat) : (s.grant c).flag g = s.flag g := rfl
@[simp] theorem rdK_grant (i e : Nat) (c : Nat) : (s.grant c).rdK i e = s.rdK i e := rfl
@[simp] theorem staged_grant (g : Field) (c : Nat) : (s.grant c).staged g = s.staged g := rfl
@[simp] theorem cell_grant (i : Nat) (c : Nat) : (s.grant c).cell i = s.cell i := rfl
@[simp] theorem port_grant (i : Nat) (c : Nat) : (s.grant c).port i = s.port i := rfl
@[simp] theorem bind_grant (i : Nat) (c : Nat) : (s.grant c).bind i = s.bind i := rfl
@[simp] theorem queue_grant (i : Nat) (c : Nat) : (s.grant c).queue i = s.queue i := rfl
@[simp] theorem window_grant (i : Nat) (c : Nat) : (s.grant c).window i = s.window i := rfl
@[simp] theorem ram_grant (i j : Nat) (c : Nat) : (s.grant c).ram i j = s.ram i j := rfl
@[simp] theorem capWord_grant (i : Nat) (c : Nat) : (s.grant c).capWord i = s.capWord i := rfl
@[simp] theorem emitWord_grant (i : Nat) (c : Nat) : (s.grant c).emitWord i = s.emitWord i := rfl
@[simp] theorem knotWord_grant (i j : Nat) (c : Nat) : (s.grant c).knotWord i j = s.knotWord i j := rfl
@[simp] theorem scaleWord_grant (i j : Nat) (c : Nat) : (s.grant c).scaleWord i j = s.scaleWord i j := rfl

/-! ### `bump` -/

@[simp] theorem cell_bump (i : Nat) (f : Field) (k : Nat) : (s.bump f k).cell i = s.cell i := rfl
@[simp] theorem port_bump (i : Nat) (f : Field) (k : Nat) : (s.bump f k).port i = s.port i := rfl
@[simp] theorem block_bump (i : Nat) (f : Field) (k : Nat) : (s.bump f k).block i = s.block i := rfl
@[simp] theorem bind_bump (i : Nat) (f : Field) (k : Nat) : (s.bump f k).bind i = s.bind i := rfl
@[simp] theorem queue_bump (i : Nat) (f : Field) (k : Nat) : (s.bump f k).queue i = s.queue i := rfl
@[simp] theorem window_bump (i : Nat) (f : Field) (k : Nat) : (s.bump f k).window i = s.window i := rfl
@[simp] theorem ram_bump (i j : Nat) (f : Field) (k : Nat) : (s.bump f k).ram i j = s.ram i j := rfl
@[simp] theorem capWord_bump (i : Nat) (f : Field) (k : Nat) : (s.bump f k).capWord i = s.capWord i := rfl
@[simp] theorem emitWord_bump (i : Nat) (f : Field) (k : Nat) : (s.bump f k).emitWord i = s.emitWord i := rfl
@[simp] theorem knotWord_bump (i j : Nat) (f : Field) (k : Nat) : (s.bump f k).knotWord i j = s.knotWord i j := rfl
@[simp] theorem scaleWord_bump (i j : Nat) (f : Field) (k : Nat) : (s.bump f k).scaleWord i j = s.scaleWord i j := rfl

/-! ### `record` -/

@[simp] theorem rd_record (g : Field) (f : Field) (k : Nat) : (s.record f k).rd g = s.rd g := rfl
@[simp] theorem flag_record (g : Field) (f : Field) (k : Nat) : (s.record f k).flag g = s.flag g := rfl
@[simp] theorem rdK_record (i e : Nat) (f : Field) (k : Nat) : (s.record f k).rdK i e = s.rdK i e := rfl
@[simp] theorem staged_record (g : Field) (f : Field) (k : Nat) : (s.record f k).staged g = s.staged g := rfl
@[simp] theorem cell_record (i : Nat) (f : Field) (k : Nat) : (s.record f k).cell i = s.cell i := rfl
@[simp] theorem port_record (i : Nat) (f : Field) (k : Nat) : (s.record f k).port i = s.port i := rfl
@[simp] theorem block_record (i : Nat) (f : Field) (k : Nat) : (s.record f k).block i = s.block i := rfl
@[simp] theorem bind_record (i : Nat) (f : Field) (k : Nat) : (s.record f k).bind i = s.bind i := rfl
@[simp] theorem queue_record (i : Nat) (f : Field) (k : Nat) : (s.record f k).queue i = s.queue i := rfl
@[simp] theorem window_record (i : Nat) (f : Field) (k : Nat) : (s.record f k).window i = s.window i := rfl
@[simp] theorem ram_record (i j : Nat) (f : Field) (k : Nat) : (s.record f k).ram i j = s.ram i j := rfl
@[simp] theorem capWord_record (i : Nat) (f : Field) (k : Nat) : (s.record f k).capWord i = s.capWord i := rfl
@[simp] theorem emitWord_record (i : Nat) (f : Field) (k : Nat) : (s.record f k).emitWord i = s.emitWord i := rfl
@[simp] theorem knotWord_record (i j : Nat) (f : Field) (k : Nat) : (s.record f k).knotWord i j = s.knotWord i j := rfl
@[simp] theorem scaleWord_record (i j : Nat) (f : Field) (k : Nat) : (s.record f k).scaleWord i j = s.scaleWord i j := rfl

/-! ### `raise` -/

@[simp] theorem cell_raise (i : Nat) (f : Field) : (s.raise f).cell i = s.cell i := rfl
@[simp] theorem port_raise (i : Nat) (f : Field) : (s.raise f).port i = s.port i := rfl
@[simp] theorem block_raise (i : Nat) (f : Field) : (s.raise f).block i = s.block i := rfl
@[simp] theorem bind_raise (i : Nat) (f : Field) : (s.raise f).bind i = s.bind i := rfl
@[simp] theorem queue_raise (i : Nat) (f : Field) : (s.raise f).queue i = s.queue i := rfl
@[simp] theorem window_raise (i : Nat) (f : Field) : (s.raise f).window i = s.window i := rfl
@[simp] theorem ram_raise (i j : Nat) (f : Field) : (s.raise f).ram i j = s.ram i j := rfl
@[simp] theorem capWord_raise (i : Nat) (f : Field) : (s.raise f).capWord i = s.capWord i := rfl
@[simp] theorem emitWord_raise (i : Nat) (f : Field) : (s.raise f).emitWord i = s.emitWord i := rfl
@[simp] theorem knotWord_raise (i j : Nat) (f : Field) : (s.raise f).knotWord i j = s.knotWord i j := rfl
@[simp] theorem scaleWord_raise (i j : Nat) (f : Field) : (s.raise f).scaleWord i j = s.scaleWord i j := rfl

/-! ### `peak` -/

@[simp] theorem cell_peak (i : Nat) (f : Field) (v : Nat) : (s.peak f v).cell i = s.cell i := rfl
@[simp] theorem port_peak (i : Nat) (f : Field) (v : Nat) : (s.peak f v).port i = s.port i := rfl
@[simp] theorem block_peak (i : Nat) (f : Field) (v : Nat) : (s.peak f v).block i = s.block i := rfl
@[simp] theorem bind_peak (i : Nat) (f : Field) (v : Nat) : (s.peak f v).bind i = s.bind i := rfl
@[simp] theorem queue_peak (i : Nat) (f : Field) (v : Nat) : (s.peak f v).queue i = s.queue i := rfl
@[simp] theorem window_peak (i : Nat) (f : Field) (v : Nat) : (s.peak f v).window i = s.window i := rfl
@[simp] theorem ram_peak (i j : Nat) (f : Field) (v : Nat) : (s.peak f v).ram i j = s.ram i j := rfl
@[simp] theorem capWord_peak (i : Nat) (f : Field) (v : Nat) : (s.peak f v).capWord i = s.capWord i := rfl
@[simp] theorem emitWord_peak (i : Nat) (f : Field) (v : Nat) : (s.peak f v).emitWord i = s.emitWord i := rfl
@[simp] theorem knotWord_peak (i j : Nat) (f : Field) (v : Nat) : (s.peak f v).knotWord i j = s.knotWord i j := rfl
@[simp] theorem scaleWord_peak (i j : Nat) (f : Field) (v : Nat) : (s.peak f v).scaleWord i j = s.scaleWord i j := rfl

/-! ### `watch` -/

@[simp] theorem rd_watch (g : Field) (q k : Nat) : (s.watch q k).rd g = s.rd g := rfl
@[simp] theorem flag_watch (g : Field) (q k : Nat) : (s.watch q k).flag g = s.flag g := rfl
@[simp] theorem rdK_watch (i e : Nat) (q k : Nat) : (s.watch q k).rdK i e = s.rdK i e := rfl
@[simp] theorem staged_watch (g : Field) (q k : Nat) : (s.watch q k).staged g = s.staged g := rfl
@[simp] theorem cell_watch (i : Nat) (q k : Nat) : (s.watch q k).cell i = s.cell i := rfl
@[simp] theorem port_watch (i : Nat) (q k : Nat) : (s.watch q k).port i = s.port i := rfl
@[simp] theorem block_watch (i : Nat) (q k : Nat) : (s.watch q k).block i = s.block i := rfl
@[simp] theorem bind_watch (i : Nat) (q k : Nat) : (s.watch q k).bind i = s.bind i := rfl
@[simp] theorem window_watch (i : Nat) (q k : Nat) : (s.watch q k).window i = s.window i := rfl
@[simp] theorem ram_watch (i j : Nat) (q k : Nat) : (s.watch q k).ram i j = s.ram i j := rfl
@[simp] theorem capWord_watch (i : Nat) (q k : Nat) : (s.watch q k).capWord i = s.capWord i := rfl
@[simp] theorem emitWord_watch (i : Nat) (q k : Nat) : (s.watch q k).emitWord i = s.emitWord i := rfl
@[simp] theorem knotWord_watch (i j : Nat) (q k : Nat) : (s.watch q k).knotWord i j = s.knotWord i j := rfl
@[simp] theorem scaleWord_watch (i j : Nat) (q k : Nat) : (s.watch q k).scaleWord i j = s.scaleWord i j := rfl

/-! ### `post` -/

@[simp] theorem rd_post (g : Field) (cls code unit level : Nat) (body : List Nat) : (s.post cls code unit body level).rd g = s.rd g := rfl
@[simp] theorem flag_post (g : Field) (cls code unit level : Nat) (body : List Nat) : (s.post cls code unit body level).flag g = s.flag g := rfl
@[simp] theorem rdK_post (i e : Nat) (cls code unit level : Nat) (body : List Nat) : (s.post cls code unit body level).rdK i e = s.rdK i e := rfl
@[simp] theorem staged_post (g : Field) (cls code unit level : Nat) (body : List Nat) : (s.post cls code unit body level).staged g = s.staged g := rfl
@[simp] theorem cell_post (i : Nat) (cls code unit level : Nat) (body : List Nat) : (s.post cls code unit body level).cell i = s.cell i := rfl
@[simp] theorem port_post (i : Nat) (cls code unit level : Nat) (body : List Nat) : (s.post cls code unit body level).port i = s.port i := rfl
@[simp] theorem block_post (i : Nat) (cls code unit level : Nat) (body : List Nat) : (s.post cls code unit body level).block i = s.block i := rfl
@[simp] theorem bind_post (i : Nat) (cls code unit level : Nat) (body : List Nat) : (s.post cls code unit body level).bind i = s.bind i := rfl
@[simp] theorem queue_post (i : Nat) (cls code unit level : Nat) (body : List Nat) : (s.post cls code unit body level).queue i = s.queue i := rfl
@[simp] theorem window_post (i : Nat) (cls code unit level : Nat) (body : List Nat) : (s.post cls code unit body level).window i = s.window i := rfl
@[simp] theorem ram_post (i j : Nat) (cls code unit level : Nat) (body : List Nat) : (s.post cls code unit body level).ram i j = s.ram i j := rfl
@[simp] theorem capWord_post (i : Nat) (cls code unit level : Nat) (body : List Nat) : (s.post cls code unit body level).capWord i = s.capWord i := rfl
@[simp] theorem emitWord_post (i : Nat) (cls code unit level : Nat) (body : List Nat) : (s.post cls code unit body level).emitWord i = s.emitWord i := rfl
@[simp] theorem knotWord_post (i j : Nat) (cls code unit level : Nat) (body : List Nat) : (s.post cls code unit body level).knotWord i j = s.knotWord i j := rfl
@[simp] theorem scaleWord_post (i j : Nat) (cls code unit level : Nat) (body : List Nat) : (s.post cls code unit body level).scaleWord i j = s.scaleWord i j := rfl

end State
end Sys2Proof.Machine
end

