-- ==== Sys2Proof/Laws/Sparse.lean ====
section
/-! SUPPORT. Laws of sparse tables: what a read finds after a write, and that every operation keeps the canonical
form. -/

namespace Sys2Proof.Machine
namespace Sparse

variable {α : Type}

/-! ### Reads after writes -/

@[simp] theorem get_nil (d : α) (k : Nat) : get d [] k = d := rfl
@[simp] theorem find_nil (k : Nat) : find ([] : Sparse α) k = none := rfl

theorem find_ins_self (m : Sparse α) (k : Nat) (v : α) : find (ins m k v) k = some v := by
  induction m with
  | nil => simp [ins, find]
  | cons e t ih =>
    obtain ⟨k', v'⟩ := e
    by_cases h : k < k'
    · simp [ins, h, find]
    · by_cases h' : k' = k
      · simp [ins, h', find]
      · simp [ins, h, h', find, ih]

theorem find_ins_ne (m : Sparse α) {k j : Nat} (v : α) (h : k ≠ j) : find (ins m k v) j = find m j := by
  induction m with
  | nil => simp [ins, find, h]
  | cons e t ih =>
    obtain ⟨k', v'⟩ := e
    by_cases h1 : k < k'
    · simp [ins, h1, find, h]
    · by_cases h2 : k' = k
      · subst h2; simp [ins, find, h]
      · simp [ins, h1, h2, find, ih]

theorem find_del_self (m : Sparse α) (k : Nat) : find (del m k) k = none := by
  induction m with
  | nil => rfl
  | cons e t ih =>
    obtain ⟨k', v'⟩ := e
    by_cases h : k' = k <;> simp [del, find, h, ih]

theorem find_del_ne (m : Sparse α) {k j : Nat} (h : k ≠ j) : find (del m k) j = find m j := by
  induction m with
  | nil => rfl
  | cons e t ih =>
    obtain ⟨k', v'⟩ := e
    by_cases h1 : k' = k
    · subst h1; simp [del, find, h, ih]
    · simp [del, h1, find, ih]

theorem get_eq_find (d : α) (m : Sparse α) (k : Nat) : get d m k = (find m k).getD d := by
  induction m with
  | nil => rfl
  | cons e t ih =>
    obtain ⟨k', v'⟩ := e
    by_cases h : k' = k <;> simp [get, find, h, ih]

variable [DecidableEq α]

@[simp] theorem get_put_self (d : α) (m : Sparse α) (k : Nat) (v : α) : get d (put d m k v) k = v := by
  unfold put
  split
  · simp [get_eq_find, find_del_self, *]
  · simp [get_eq_find, find_ins_self]

theorem find_put_ne (d : α) (m : Sparse α) {k j : Nat} (v : α) (h : k ≠ j) : find (put d m k v) j = find m j := by
  unfold put
  split
  · exact find_del_ne m h
  · exact find_ins_ne m v h

/-- A write at one key leaves every other key alone, whatever the unlisted keys read as. -/
theorem get_put_ne (d d' : α) (m : Sparse α) {k j : Nat} (v : α) (h : k ≠ j) :
    get d' (put d m k v) j = get d' m j := by
  simp [get_eq_find, find_put_ne d m v h]

theorem find_put_self (d : α) (m : Sparse α) (k : Nat) (v : α) :
    find (put d m k v) k = if v = d then none else some v := by
  unfold put
  split <;> simp [find_del_self, find_ins_self]

@[simp] theorem get_modify_self (d : α) (m : Sparse α) (k : Nat) (f : α → α) :
    get d (modify d m k f) k = f (get d m k) := by simp [modify]

theorem get_modify_ne (d d' : α) (m : Sparse α) {k j : Nat} (f : α → α) (h : k ≠ j) :
    get d' (modify d m k f) j = get d' m j := get_put_ne d d' m _ h

theorem get_modify (d : α) (m : Sparse α) (k j : Nat) (f : α → α) :
    get d (modify d m k f) j = if k = j then f (get d m k) else get d m j := by
  by_cases h : k = j
  · subst h; simp
  · simp [h, get_modify_ne d d m f h]

/-! ### The canonical form -/

omit [DecidableEq α] in
/-- Every key of a sorted table lies above its first. -/
theorem sorted_cons {k : Nat} {v : α} {t : Sparse α} :
    sorted ((k, v) :: t) = true ↔ (∀ e ∈ t, k < e.1) ∧ sorted t = true := by
  induction t generalizing k v with
  | nil => simp [sorted]
  | cons e t ih =>
    obtain ⟨k', v'⟩ := e
    constructor
    · intro h
      simp only [sorted, Bool.and_eq_true, decide_eq_true_eq] at h
      refine ⟨?_, h.2⟩
      intro e he
      rcases List.mem_cons.1 he with rfl | he
      · exact h.1
      · exact Nat.lt_trans h.1 ((ih.1 h.2).1 e he)
    · intro h
      simp only [sorted, Bool.and_eq_true, decide_eq_true_eq]
      exact ⟨h.1 (k', v') (List.mem_cons_self), h.2⟩

omit [DecidableEq α] in
theorem mem_ins {m : Sparse α} {k : Nat} {v : α} {e : Nat × α} (h : e ∈ ins m k v) : e = (k, v) ∨ e ∈ m := by
  induction m with
  | nil => simpa [ins] using h
  | cons e' t ih =>
    obtain ⟨k', v'⟩ := e'
    unfold ins at h
    split at h
    · simpa using h
    · split at h
      · rcases List.mem_cons.1 h with h | h
        · exact .inl h
        · exact .inr (List.mem_cons_of_mem _ h)
      · rcases List.mem_cons.1 h with h | h
        · exact .inr (h ▸ List.mem_cons_self)
        · exact (ih h).imp id (List.mem_cons_of_mem _)

omit [DecidableEq α] in
theorem mem_del {m : Sparse α} {k : Nat} {e : Nat × α} (h : e ∈ del m k) : e ∈ m := by
  induction m with
  | nil => simp [del] at h
  | cons e' t ih =>
    obtain ⟨k', v'⟩ := e'
    unfold del at h
    split at h
    · exact List.mem_cons_of_mem _ (ih h)
    · rcases List.mem_cons.1 h with h | h
      · exact h ▸ List.mem_cons_self
      · exact List.mem_cons_of_mem _ (ih h)

omit [DecidableEq α] in
theorem sorted_ins {m : Sparse α} (h : sorted m = true) (k : Nat) (v : α) : sorted (ins m k v) = true := by
  induction m with
  | nil => rfl
  | cons e t ih =>
    obtain ⟨k', v'⟩ := e
    obtain ⟨h1, h2⟩ := sorted_cons.1 h
    unfold ins
    split
    · refine sorted_cons.2 ⟨fun e he => ?_, h⟩
      rcases List.mem_cons.1 he with rfl | he
      · assumption
      · exact Nat.lt_trans ‹k < k'› (h1 e he)
    · split
      · rename_i h3 h4
        exact sorted_cons.2 ⟨fun e he => h4 ▸ h1 e he, h2⟩
      · refine sorted_cons.2 ⟨fun e he => ?_, ih h2⟩
        rcases mem_ins he with rfl | he
        · have : k' ≠ k := ‹_›
          have : ¬ k < k' := ‹_›
          simp only; omega
        · exact h1 e he

omit [DecidableEq α] in
theorem sorted_del {m : Sparse α} (h : sorted m = true) (k : Nat) : sorted (del m k) = true := by
  induction m with
  | nil => rfl
  | cons e t ih =>
    obtain ⟨k', v'⟩ := e
    obtain ⟨h1, h2⟩ := sorted_cons.1 h
    unfold del
    split
    · exact ih h2
    · exact sorted_cons.2 ⟨fun e he => h1 e (mem_del he), ih h2⟩

@[simp] theorem wf_nil (d : α) : wf d [] = true := rfl

theorem wf_iff {d : α} {m : Sparse α} : wf d m = true ↔ sorted m = true ∧ ∀ e ∈ m, e.2 ≠ d := by
  simp [wf]

/-- A write keeps the canonical form. -/
theorem wf_put {d : α} {m : Sparse α} (h : wf d m = true) (k : Nat) (v : α) : wf d (put d m k v) = true := by
  obtain ⟨h1, h2⟩ := wf_iff.1 h
  unfold put
  split
  · exact wf_iff.2 ⟨sorted_del h1 k, fun e he => h2 e (mem_del he)⟩
  · refine wf_iff.2 ⟨sorted_ins h1 k v, fun e he => ?_⟩
    rcases mem_ins he with rfl | he
    · assumption
    · exact h2 e he

theorem wf_modify {d : α} {m : Sparse α} (h : wf d m = true) (k : Nat) (f : α → α) : wf d (modify d m k f) = true :=
  wf_put h k _

omit [DecidableEq α] in
theorem sorted_filter {m : Sparse α} (h : sorted m = true) (p : Nat × α → Bool) : sorted (m.filter p) = true := by
  induction m with
  | nil => rfl
  | cons e t ih =>
    obtain ⟨k, v⟩ := e
    obtain ⟨h1, h2⟩ := sorted_cons.1 h
    rw [List.filter_cons]
    split
    · exact sorted_cons.2 ⟨fun e he => h1 e (List.mem_filter.1 he).1, ih h2⟩
    · exact ih h2

/-- Leaving entries out keeps the canonical form. -/
theorem wf_filter {d : α} {m : Sparse α} (h : wf d m = true) (p : Nat × α → Bool) : wf d (m.filter p) = true := by
  obtain ⟨h1, h2⟩ := wf_iff.1 h
  exact wf_iff.2 ⟨sorted_filter h1 p, fun e he => h2 e (List.mem_filter.1 he).1⟩

end Sparse
end Sys2Proof.Machine
end

