-- ==== Sys2Proof/Laws/Ops.lean ====
section
/-! SUPPORT. What the shared operations do: register fields, units, queues, events and memories, and that each of them
keeps the RAMs in their canonical form. -/

namespace Sys2Proof.Machine

/-! ### Combinators -/

@[simp] theorem onlyIf_true (f : State → State) (s : State) : onlyIf true f s = f s := rfl
@[simp] theorem onlyIf_false (f : State → State) (s : State) : onlyIf false f s = s := rfl

/-- A property that `f` keeps holds after `onlyIf b f`. -/
theorem onlyIf_keeps {P : State → Prop} {f : State → State} (b : Bool) {s : State} (h : P s)
    (hf : P s → P (f s)) : P (onlyIf b f s) := by
  cases b
  · exact h
  · exact hf h

@[simp] theorem each_nil {α : Type} (f : α → State → State) (s : State) : each [] f s = s := rfl
@[simp] theorem each_cons {α : Type} (a : α) (l : List α) (f : α → State → State) (s : State) :
    each (a :: l) f s = each l f (f a s) := rfl

/-- A property that every `f a` keeps holds after `each`. -/
theorem each_keeps {α : Type} {P : State → Prop} {f : α → State → State} (l : List α) {s : State} (h : P s)
    (hf : ∀ a ∈ l, ∀ s, P s → P (f a s)) : P (each l f s) := by
  induction l generalizing s with
  | nil => exact h
  | cons a l ih =>
    exact ih (hf a List.mem_cons_self s h) fun b hb => hf b (List.mem_cons_of_mem _ hb)

/-- A part of the state that every `f a` leaves alone is as before after `each`. -/
theorem each_same {α β : Type} {g : State → β} {f : α → State → State} (l : List α) (s : State)
    (hf : ∀ a ∈ l, ∀ s, g (f a s) = g s) : g (each l f s) = g s :=
  each_keeps (P := fun t => g t = g s) l rfl fun a ha t ht => (hf a ha t).trans ht

/-- A part of the state that `f` leaves alone is as before after `onlyIf b f`. -/
theorem onlyIf_same {β : Type} {g : State → β} {f : State → State} (b : Bool) (s : State) (hf : g (f s) = g s) :
    g (onlyIf b f s) = g s :=
  onlyIf_keeps (P := fun t => g t = g s) b rfl fun _ => hf

/-- `ready` always answers a next state: `f` of the state in a device that is READY, and the state otherwise. -/
theorem ready_eq {s : State} (f : State → State) (h : s.power.phase = .ready) : ready s f = .next (f s) := by
  simp [ready, h]

theorem ready_before {s : State} (f : State → State) (h : s.power.phase ≠ .ready) : ready s f = .next s := by
  simp [ready, h]

theorem ready_next {s t : State} {f : State → State} (h : ready s f = .next t) : t = f s ∨ t = s := by
  simp only [ready, Host.Outcome.next.injEq] at h
  split at h
  · exact .inl h.symm
  · exact .inr h.symm

namespace State

/-! ### Register fields -/

@[simp] theorem rd_wr_self (s : State) (f : Field) (v : Nat) : (s.wr f v).rd f = v % f.size := by simp [rd]

/-- A write of a field leaves every field with another key alone. -/
theorem rd_wr_ne (s : State) {f g : Field} (v : Nat) (h : f.key ≠ g.key) : (s.wr f v).rd g = s.rd g :=
  Sparse.get_put_ne _ _ _ _ h

theorem rdK_wr_ne (s : State) {f : Field} (v : Nat) {k d : Nat} (h : f.key ≠ k) : (s.wr f v).rdK k d = s.rdK k d :=
  Sparse.get_put_ne _ _ _ _ h

@[simp] theorem rdK_wrK_self (s : State) (k v d : Nat) : (s.wrK k v d).rdK k d = v := by simp [rdK, wrK]

theorem rdK_wrK_ne (s : State) {k j : Nat} (v d e : Nat) (h : k ≠ j) : (s.wrK k v d).rdK j e = s.rdK j e :=
  Sparse.get_put_ne _ _ _ _ h

/-- A saturating counter (R15). -/
theorem rd_bump_self (s : State) (f : Field) (n : Nat) :
    (s.bump f n).rd f = min (s.rd f + n) (f.size - 1) := by
  have h : 0 < f.size := Nat.two_pow_pos _
  simp only [bump, rd_wr_self]
  exact Nat.mod_eq_of_lt (by omega)

theorem rd_bump_ne (s : State) {f g : Field} (n : Nat) (h : f.key ≠ g.key) : (s.bump f n).rd g = s.rd g :=
  rd_wr_ne _ _ h

@[simp] theorem rd_raise_self (s : State) (f : Field) : (s.raise f).rd f = 1 % f.size := rd_wr_self _ _ _

theorem rd_raise_ne (s : State) {f g : Field} (h : f.key ≠ g.key) : (s.raise f).rd g = s.rd g := rd_wr_ne _ _ h

/-- What the device records changes nothing but the record. -/
theorem record_eq (s : State) (f : Field) (n : Nat) : s.record f n = { s with recorded := (s.record f n).recorded } := rfl

/-- A field that the device changes in this clk is recorded: what it was before the first change, and the increments
(R12). -/
theorem recordedNow_record {s : State} {f : Field} (n : Nat) (ha : f.acc = .w1c ∨ f.acc = .rc) :
    (s.record f n).recordedNow f = some (match s.recordedNow f with | some e => (e.1, e.2 + n) | none => (s.rd f, n)) := by
  have ha' : (f.acc == .w1c || f.acc == .rc) = true := by rcases ha with h | h <;> simp [h]
  by_cases h : (Sparse.get (0, 0, 0) s.recorded f.key).1 = s.tick.clk + 1 <;>
    simp [record, recordedNow, ha', h]

@[simp] theorem setStage_stage (s : State) (m : Sparse Nat) : (s.setStage m).stage = m := rfl
@[simp] theorem setStage_regs (s : State) (m : Sparse Nat) : (s.setStage m).regs = s.regs := rfl

@[simp] theorem staged_stageWr_self (s : State) (f : Field) (v : Nat) : (s.stageWr f v).staged f = v % f.size := by
  simp [staged, stageWr, rd]

theorem staged_stageWr_ne (s : State) {f g : Field} (v : Nat) (h : f.key ≠ g.key) :
    (s.stageWr f v).staged g = s.staged g := by
  simp only [staged, rd_stageWr, stageWr_stage]
  exact Sparse.get_put_ne _ _ _ _ h

@[simp] theorem stagedK_stageK_self (s : State) (k v d : Nat) : (s.stageK k v d).stagedK k d = v := by
  simp [stagedK, stageK, rdK]

/-- Register writes of other keys are not seen, in one statement for all keys (the frame of R11's live values). -/
theorem keepsRegs_wr (s : State) (f : Field) (v : Nat) : s.keepsRegs [f.key] (s.wr f v) := by
  intro g hg
  exact rd_wr_ne s v fun h => hg (by simp [h])

theorem keepsRegs_refl (s : State) (keys : List Nat) : s.keepsRegs keys s := fun _ _ => rfl

theorem keepsRegs_trans {s t u : State} {ks ls : List Nat} (h1 : s.keepsRegs ks t) (h2 : t.keepsRegs ls u) :
    s.keepsRegs (ks ++ ls) u := by
  intro f hf
  simp only [List.mem_append, not_or] at hf
  rw [h2 f hf.2, h1 f hf.1]

/-! ### Units -/

@[simp] theorem cell_modCell_self (s : State) (c : Nat) (f : Cell → Cell) : (s.modCell c f).cell c = f (s.cell c) := by
  simp [cell, modCell]
theorem cell_modCell (s : State) (c i : Nat) (f : Cell → Cell) :
    (s.modCell c f).cell i = if c = i then f (s.cell c) else s.cell i := Sparse.get_modify _ _ _ _ _
@[simp] theorem port_modPort_self (s : State) (n : Nat) (f : Port → Port) : (s.modPort n f).port n = f (s.port n) := by
  simp [port, modPort]
theorem port_modPort (s : State) (n i : Nat) (f : Port → Port) :
    (s.modPort n f).port i = if n = i then f (s.port n) else s.port i := Sparse.get_modify _ _ _ _ _
@[simp] theorem block_modBlock_self (s : State) (b : Nat) (f : Block → Block) :
    (s.modBlock b f).block b = f (s.block b) := by simp [block, modBlock]
theorem block_modBlock (s : State) (b i : Nat) (f : Block → Block) :
    (s.modBlock b f).block i = if b = i then f (s.block b) else s.block i := Sparse.get_modify _ _ _ _ _
@[simp] theorem bind_modBind_self (s : State) (n : Nat) (f : Bind → Bind) : (s.modBind n f).bind n = f (s.bind n) := by
  simp [bind, modBind]
theorem bind_modBind (s : State) (n i : Nat) (f : Bind → Bind) :
    (s.modBind n f).bind i = if n = i then f (s.bind n) else s.bind i := Sparse.get_modify _ _ _ _ _
@[simp] theorem queue_modQueue_self (s : State) (q : Nat) (f : Queue → Queue) :
    (s.modQueue q f).queue q = f (s.queue q) := by simp [queue, modQueue]
theorem queue_modQueue (s : State) (q i : Nat) (f : Queue → Queue) :
    (s.modQueue q f).queue i = if q = i then f (s.queue q) else s.queue i := Sparse.get_modify _ _ _ _ _
@[simp] theorem window_modWindow_self (s : State) (w : Nat) (f : Window → Window) :
    (s.modWindow w f).window w = f (s.window w) := by simp [window, modWindow]
theorem window_modWindow (s : State) (w i : Nat) (f : Window → Window) :
    (s.modWindow w f).window i = if w = i then f (s.window w) else s.window i := Sparse.get_modify _ _ _ _ _

/-! ### Queues (chapter 8) -/

/-- A state that differs from `s` in register fields only, and in what the device has recorded in them. -/
def regsOnly (s t : State) : Prop := ∃ r x, t = { s with regs := r, recorded := x }

theorem regsOnly_refl (s : State) : s.regsOnly s := ⟨_, _, rfl⟩
theorem regsOnly_wr {s t : State} (h : s.regsOnly t) (f : Field) (v : Nat) : s.regsOnly (t.wr f v) := by
  obtain ⟨r, x, rfl⟩ := h; exact ⟨_, _, rfl⟩
theorem regsOnly_bump {s t : State} (h : s.regsOnly t) (f : Field) (n : Nat) : s.regsOnly (t.bump f n) := by
  obtain ⟨r, x, rfl⟩ := h; exact ⟨_, _, rfl⟩
theorem regsOnly_raise {s t : State} (h : s.regsOnly t) (f : Field) : s.regsOnly (t.raise f) := by
  obtain ⟨r, x, rfl⟩ := h; exact ⟨_, _, rfl⟩
theorem regsOnly_eq {s t : State} (h : s.regsOnly t) : t = { s with regs := t.regs, recorded := t.recorded } := by
  obtain ⟨r, x, rfl⟩ := h; rfl

/-- The watermark comparison changes register fields only. -/
theorem compareMarks_regsOnly (q : Nat) (s : State) : s.regsOnly (s.compareMarks q) := by
  refine regsOnly_wr (regsOnly_wr ?_ _ _) _ _
  refine onlyIf_keeps _ ?_ fun h => regsOnly_bump (regsOnly_raise h _) _ _
  exact onlyIf_keeps _ (regsOnly_refl s) fun h => regsOnly_bump (regsOnly_raise h _) _ _

theorem compareMarks_eq (q : Nat) (s : State) :
    s.compareMarks q = { s with regs := (s.compareMarks q).regs, recorded := (s.compareMarks q).recorded } :=
  regsOnly_eq (compareMarks_regsOnly q s)

@[simp] theorem queues_compareMarks (q : Nat) (s : State) : (s.compareMarks q).queues = s.queues := by
  rw [compareMarks_eq]

@[simp] theorem queue_compareMarks (q i : Nat) (s : State) : (s.compareMarks q).queue i = s.queue i := by
  rw [compareMarks_eq]; rfl

/-- A state that differs from `s` in queues and register fields only: what a queue settles by. -/
def marksOnly (s t : State) : Prop := ∃ q r x, t = { s with queues := q, regs := r, recorded := x }

theorem marksOnly_refl (s : State) : s.marksOnly s := ⟨_, _, _, rfl⟩
theorem marksOnly_modQueue {s t : State} (h : s.marksOnly t) (q : Nat) (f : Queue → Queue) :
    s.marksOnly (t.modQueue q f) := by obtain ⟨_, _, _, rfl⟩ := h; exact ⟨_, _, _, rfl⟩
theorem marksOnly_watch {s t : State} (h : s.marksOnly t) (q n : Nat) : s.marksOnly (t.watch q n) :=
  marksOnly_modQueue h _ _
theorem marksOnly_landQueue {s t : State} (h : s.marksOnly t) (q k : Nat) : s.marksOnly (t.landQueue q k) := by
  unfold landQueue; split
  · exact marksOnly_modQueue h _ _
  · exact h
theorem marksOnly_compareMarks {s t : State} (h : s.marksOnly t) (q : Nat) : s.marksOnly (t.compareMarks q) := by
  obtain ⟨_, _, _, rfl⟩ := h; rw [compareMarks_eq]; exact ⟨_, _, _, rfl⟩
theorem marksOnly_settle {s t : State} (h : s.marksOnly t) (q : Nat) : s.marksOnly (t.settle q) := by
  unfold settle; dsimp only; split
  · exact h
  · exact marksOnly_modQueue (marksOnly_landQueue (each_keeps (P := s.marksOnly) _ h
      fun _ _ _ h => marksOnly_compareMarks (marksOnly_landQueue h _ _) _) _ _) _ _
theorem marksOnly_eq {s t : State} (h : s.marksOnly t) :
    t = { s with queues := t.queues, regs := t.regs, recorded := t.recorded } := by obtain ⟨_, _, _, rfl⟩ := h; rfl

/-- What settles in a queue changes that queue and register fields. -/
theorem settle_eq (q : Nat) (s : State) : s.settle q =
    { s with queues := (s.settle q).queues, regs := (s.settle q).regs, recorded := (s.settle q).recorded } :=
  marksOnly_eq (marksOnly_settle (marksOnly_refl s) q)

@[simp] theorem queue_landQueue_ne {q i : Nat} (k : Nat) (s : State) (h : q ≠ i) :
    (s.landQueue q k).queue i = s.queue i := by
  unfold landQueue; split
  · rw [queue_modQueue, if_neg h]
  · rfl

theorem queue_settle_ne {q i : Nat} (s : State) (h : q ≠ i) : (s.settle q).queue i = s.queue i := by
  unfold settle; dsimp only; split
  · rfl
  · rw [queue_modQueue, if_neg h, queue_landQueue_ne _ _ h]
    exact each_same (g := fun t => t.queue i) _ s fun k _ t => by
      rw [queue_compareMarks, queue_landQueue_ne _ _ h]

/-- Nothing settles in a queue that waits for nothing. -/
theorem settle_idle {q : Nat} {s : State} (hd : (s.queue q).due = []) (hc : (s.queue q).coming = []) : s.settle q = s := by
  simp [settle, hd, hc]

/-- Only a bulk queue gets words by settling (R214). -/
theorem queue_settle_vis {q : Nat} (s : State) (h : isBulk q = false) :
    ((s.settle q).queue q).vis = (s.queue q).vis ∧ ((s.settle q).queue q).opened = (s.queue q).opened := by
  have hl : ∀ k (t : State), t.landQueue q k = t := fun k t => by simp [landQueue, h]
  unfold settle; dsimp only; split
  · exact ⟨rfl, rfl⟩
  · have he : ∀ l : List Nat, (each l (fun k s => (s.landQueue q k).compareMarks q) s).queue q = s.queue q :=
      fun l => each_same (g := fun t => t.queue q) l s fun k _ t => by rw [queue_compareMarks, hl]
    rw [queue_modQueue_self, hl]
    simp only [he]
    exact ⟨trivial, trivial⟩

/-- The words that a push of a packet makes visible, with END on the last (R222, R227). -/
theorem queue_pushPacket_vis {q : Nat} {ws : List Nat} (s : State) (h : ws ≠ []) :
    ((s.pushPacket q ws).queue q).vis = ((s.settle q).queue q).vis ++ packet ws := by
  simp [pushPacket, h, watch, Queue.dueAt]

/-- The same for a queue whose device producer pushes in no other way. -/
theorem queue_pushPacket_plain {q : Nat} (ws : List Nat) (s : State) (hb : isBulk q = false) :
    ((s.pushPacket q ws).queue q).vis = (s.queue q).vis ++ packet ws := by
  by_cases h : ws = []
  · simp [pushPacket, h, packet]
  · rw [queue_pushPacket_vis s h, (queue_settle_vis s hb).1]

theorem queue_watch_ne {q i : Nat} (n : Nat) (s : State) (h : q ≠ i) : (s.watch q n).queue i = s.queue i := by
  rw [watch, queue_modQueue, if_neg h]

theorem queue_pushPacket_ne (q i : Nat) (ws : List Nat) (s : State) (h : q ≠ i) :
    (s.pushPacket q ws).queue i = s.queue i := by
  unfold pushPacket
  split
  · rfl
  · rw [queue_watch_ne _ _ h, queue_modQueue, if_neg h, queue_settle_ne s h]

theorem marksOnly_pushPacket {s t : State} (h : s.marksOnly t) (q : Nat) (ws : List Nat) :
    s.marksOnly (t.pushPacket q ws) := by
  unfold pushPacket; split
  · exact h
  · exact marksOnly_watch (marksOnly_modQueue (marksOnly_settle h q) _ _) _ _

/-- A push of a packet changes its queue and register fields only. -/
theorem pushPacket_eq (q : Nat) (ws : List Nat) (s : State) : s.pushPacket q ws =
    { s with queues := (s.pushPacket q ws).queues, regs := (s.pushPacket q ws).regs,
             recorded := (s.pushPacket q ws).recorded } :=
  marksOnly_eq (marksOnly_pushPacket (marksOnly_refl s) q ws)

theorem marksOnly_pushBulk {s t : State} (h : s.marksOnly t) (q : Nat) (ws : List Nat) : s.marksOnly (t.pushBulk q ws) :=
  marksOnly_modQueue (marksOnly_settle h q) _ _

/-- A packet that a device producer begins to push changes its queue and register fields only. -/
theorem pushBulk_eq (q : Nat) (ws : List Nat) (s : State) : s.pushBulk q ws =
    { s with queues := (s.pushBulk q ws).queues, regs := (s.pushBulk q ws).regs,
             recorded := (s.pushBulk q ws).recorded } :=
  marksOnly_eq (marksOnly_pushBulk (marksOnly_refl s) q ws)

theorem marksOnly_markNow {s t : State} (h : s.marksOnly t) (q : Nat) : s.marksOnly (t.markNow q) := by
  unfold markNow
  exact each_keeps (P := s.marksOnly) _ (marksOnly_modQueue h _ _) fun _ _ _ h => marksOnly_compareMarks h _

theorem queue_markNow (q i : Nat) (s : State) : (s.markNow q).queue i =
    if q = i then { s.queue q with due := [] } else s.queue i := by
  unfold markNow
  rw [each_same (g := fun t => t.queue i) _ _ fun _ _ t => queue_compareMarks _ _ t, queue_modQueue]

/-- A posted event is the last of those that the merger holds. -/
theorem post_posted (s : State) (cls code unit level : Nat) (body : List Nat) :
    (s.post cls code unit body level).merger.posted =
      s.merger.posted ++ [⟨cls, code, s.now, level, unit, body.map (· % 2 ^ 18)⟩] := rfl

theorem postsEvent_post (s : State) (cls code unit level : Nat) (body : List Nat) :
    s.postsEvent cls code unit (s.post cls code unit body level) :=
  ⟨_, rfl, _, List.mem_cons_self, rfl, rfl, rfl⟩

theorem popWord_nil {q : Nat} {s : State} (h : ((s.settle q).queue q).vis = []) : s.popWord q = none := by
  simp [popWord, h]

/-- A pop takes the first visible word (R226). -/
theorem popWord_vis {q : Nat} {s t : State} {w : QWord} (h : s.popWord q = some (w, t)) :
    ((s.settle q).queue q).vis = w :: (t.queue q).vis := by
  simp only [popWord] at h
  split at h
  · cases h
  · rename_i w' t' hv
    simp only [Option.some.injEq, Prod.mk.injEq] at h
    obtain ⟨rfl, rfl⟩ := h
    split <;> simp [hv, watch, Queue.dueAt]

theorem marksOnly_popWord {q : Nat} {s t u : State} {w : QWord} (hs : u.marksOnly s) (h : s.popWord q = some (w, t)) :
    u.marksOnly t := by
  simp only [popWord] at h
  split at h
  · cases h
  · simp only [Option.some.injEq, Prod.mk.injEq] at h
    obtain ⟨rfl, rfl⟩ := h
    split
    · exact marksOnly_watch (marksOnly_modQueue (marksOnly_settle hs q) _ _) _ _
    · exact marksOnly_modQueue (marksOnly_settle hs q) _ _

theorem popWord_ne {q i : Nat} {s t : State} {w : QWord} (h : s.popWord q = some (w, t)) (hi : q ≠ i) :
    t.queue i = s.queue i := by
  simp only [popWord] at h
  split at h
  · cases h
  · simp only [Option.some.injEq, Prod.mk.injEq] at h
    obtain ⟨rfl, rfl⟩ := h
    split <;> simp [queue_watch_ne, queue_modQueue, hi, queue_settle_ne]

/-- A drop takes the first visible packet, or what is left of it (R232). -/
theorem dropPacket_vis (q : Nat) (s : State) :
    ((s.dropPacket q).2.queue q).vis = ((s.settle q).queue q).vis.drop (s.dropPacket q).1 := by
  by_cases h : Queue.head ((s.settle q).queue q).vis = [] <;> simp [dropPacket, h, watch, Queue.dueAt]

theorem marksOnly_dropPacket {s t : State} (h : s.marksOnly t) (q : Nat) : s.marksOnly (t.dropPacket q).2 := by
  unfold dropPacket; dsimp only; split
  · exact marksOnly_settle h q
  · exact marksOnly_watch (marksOnly_modQueue (marksOnly_settle h q) _ _) _ _

theorem dropPacket_eq (q : Nat) (s : State) : (s.dropPacket q).2 =
    { s with queues := (s.dropPacket q).2.queues, regs := (s.dropPacket q).2.regs,
             recorded := (s.dropPacket q).2.recorded } := marksOnly_eq (marksOnly_dropPacket (marksOnly_refl s) q)

theorem queue_dropPacket_ne {q i : Nat} (s : State) (h : q ≠ i) : (s.dropPacket q).2.queue i = s.queue i := by
  unfold dropPacket; dsimp only; split
  · exact queue_settle_ne s h
  · rw [queue_watch_ne _ _ h, queue_modQueue, if_neg h, queue_settle_ne s h]

/-! ### The tether -/

/-- An item that waits to go out changes nothing but what waits there and the mark of an overflow. -/
theorem send_eq (s : State) (o : Outgoing) : s.send o =
    { s with pair := { s.pair with out := (s.send o).pair.out, overflow := (s.send o).pair.overflow } } := by
  unfold send; split <;> rfl

theorem forward_eq (s : State) (i : StreamItem) : s.forward i =
    { s with pair := { s.pair with out := (s.forward i).pair.out, overflow := (s.forward i).pair.overflow } } := by
  unfold forward; split
  · exact send_eq _ _
  · rfl

/-- Without a link nothing goes out. -/
theorem send_unlinked {s : State} (h : s.rd F.SP_PSTAT.LINK ≠ 2) (o : Outgoing) : s.send o = s := by simp [send, h]

/-! ### Memories -/

/-- A write of a RAM word changes nothing else but its mark of an uncorrectable word. -/
theorem wrote_eq (key : Nat) (s : State) : s.wrote key = { s with wear := (s.wrote key).wear } := by
  unfold wrote; split <;> rfl

@[simp] theorem blockRam_wrote (key : Nat) (s : State) : (s.wrote key).blockRam = s.blockRam := by rw [wrote_eq]
@[simp] theorem captured_wrote (key : Nat) (s : State) : (s.wrote key).captured = s.captured := by rw [wrote_eq]
@[simp] theorem emit_wrote (key : Nat) (s : State) : (s.wrote key).emit = s.emit := by rw [wrote_eq]
@[simp] theorem knots_wrote (key : Nat) (s : State) : (s.wrote key).knots = s.knots := by rw [wrote_eq]
@[simp] theorem scales_wrote (key : Nat) (s : State) : (s.wrote key).scales = s.scales := by rw [wrote_eq]
@[simp] theorem engine_wrote (key : Nat) (s : State) : (s.wrote key).engine = s.engine := by rw [wrote_eq]
@[simp] theorem regs_wrote (key : Nat) (s : State) : (s.wrote key).regs = s.regs := by rw [wrote_eq]

@[simp] theorem capWord_wrCap_self (s : State) (i : Nat) (w : Word) : (s.wrCap i w).capWord i = w := by
  simp [capWord, wrCap]
theorem capWord_wrCap_ne (s : State) {i j : Nat} (w : Word) (h : i ≠ j) : (s.wrCap i w).capWord j = s.capWord j := by
  simp only [capWord, wrCap, captured_wrote]; exact Sparse.get_put_ne _ _ _ _ h
@[simp] theorem emitWord_wrEmit_self (s : State) (i : Nat) (w : Word) : (s.wrEmit i w).emitWord i = w := by
  simp [emitWord, wrEmit]
theorem emitWord_wrEmit_ne (s : State) {i j : Nat} (w : Word) (h : i ≠ j) :
    (s.wrEmit i w).emitWord j = s.emitWord j := by
  simp only [emitWord, wrEmit, emit_wrote]; exact Sparse.get_put_ne _ _ _ _ h
@[simp] theorem knotWord_wrKnot_self (s : State) (k w : Nat) (v : Word) : (s.wrKnot k w v).knotWord k w = v := by
  simp [knotWord, wrKnot]
theorem knotWord_wrKnot_ne (s : State) {k w k' w' : Nat} (v : Word) (h : k * 4 + w ≠ k' * 4 + w') :
    (s.wrKnot k w v).knotWord k' w' = s.knotWord k' w' := by
  simp only [knotWord, wrKnot, knots_wrote]; exact Sparse.get_put_ne _ _ _ _ h
@[simp] theorem scaleWord_wrScale_self (s : State) (e w : Nat) (v : Word) : (s.wrScale e w v).scaleWord e w = v := by
  simp [scaleWord, wrScale]
theorem scaleWord_wrScale_ne (s : State) {e w e' w' : Nat} (v : Word) (h : e * 3 + w ≠ e' * 3 + w') :
    (s.wrScale e w v).scaleWord e' w' = s.scaleWord e' w' := by
  simp only [scaleWord, wrScale, scales_wrote]; exact Sparse.get_put_ne _ _ _ _ h

@[simp] theorem ram_wrRam_self (s : State) (b i : Nat) (v : Word) : (s.wrRam b i v).ram b i = v := by simp [ram, wrRam]

/-- A write of a word of block RAM leaves every other word of every block alone. -/
theorem ram_wrRam_ne (s : State) {b i b' i' : Nat} (v : Word) (h : b ≠ b' ∨ i % 32768 ≠ i' % 32768) :
    (s.wrRam b i v).ram b' i' = s.ram b' i' := by
  simp only [ram, wrRam, blockRam_wrote]
  exact Sparse.get_put_ne _ _ _ _ (by omega)

/-- The frame of a write into block RAM. -/
theorem keepsRam_wrRam (s : State) (b i : Nat) (v : Word) :
    s.keepsRam (fun b' i' => b' = b ∧ i' = i % 32768) (s.wrRam b i v) := by
  intro b' i' hi hn
  refine ram_wrRam_ne s v ?_
  by_cases h : b = b'
  · refine .inr fun h' => hn ⟨h.symm, ?_⟩
    rw [h', Nat.mod_eq_of_lt hi]
  · exact .inl h

theorem keepsRam_refl (s : State) (hit : Nat → Nat → Prop) : s.keepsRam hit s := fun _ _ _ _ => rfl

theorem keepsRam_trans {s t u : State} {hit : Nat → Nat → Prop} (h1 : s.keepsRam hit t) (h2 : t.keepsRam hit u) :
    s.keepsRam hit u := fun b i hi hn => (h2 b i hi hn).trans (h1 b i hi hn)

theorem keepsRam_mono {s t : State} {hit hit' : Nat → Nat → Prop} (h : s.keepsRam hit t)
    (hh : ∀ b i, hit b i → hit' b i) : s.keepsRam hit' t := fun b i hi hn => h b i hi fun x => hn (hh b i x)

/-! ### The canonical form of the RAMs -/

/-- The RAMs of a state: equal RAMs are in the canonical form together. -/
def rams (s : State) : Sparse Word × Sparse Word × Sparse Word × Sparse Word × Sparse Word × Sparse Word :=
  (s.blockRam, s.captured, s.emit, s.knots, s.scales, s.engine.patch)

theorem ramsOk_iff (s : State) : s.ramsOk = true ↔ Sparse.wf 0 s.blockRam = true ∧
    Sparse.wf imgDefault s.captured = true ∧ Sparse.wf imgDefault s.emit = true ∧ Sparse.wf 0 s.knots = true ∧
    Sparse.wf 0 s.scales = true ∧ Sparse.wf 0 s.engine.patch = true := by
  simp [ramsOk, and_assoc]

/-- The RAMs of a state written field by field. -/
@[simp] theorem rams_mk (x0 x1 x2 x3 x4 x5 x6 x7 x8 x9 x10 x11 x12 x13 x14 x15 x16 x17 x18 x19 x20 x21 x22 x23 x24
      x25 x26 x27 x28 x29 x30 x31 x32 x33) :
    (State.mk x0 x1 x2 x3 x4 x5 x6 x7 x8 x9 x10 x11 x12 x13 x14 x15 x16 x17 x18 x19 x20 x21 x22 x23 x24
      x25 x26 x27 x28 x29 x30 x31 x32 x33).rams =
      (x9, x10, x11, x12, x13, x6.patch) := (rfl)

@[simp] theorem rams_eta (s : State) :
    (s.blockRam, s.captured, s.emit, s.knots, s.scales, s.engine.patch) = s.rams := (rfl)

@[simp] theorem rams_ite (c : Prop) [Decidable c] (s t : State) :
    (if c then s else t).rams = if c then s.rams else t.rams := by
  split <;> rfl

theorem ramsOk_of_rams {s t : State} (h : t.rams = s.rams) (hs : s.ramsOk = true) : t.ramsOk = true := by
  simp only [rams, Prod.mk.injEq] at h
  simpa [ramsOk, h] using hs

theorem wrCap_ramsOk {s : State} (h : s.ramsOk = true) (i : Nat) (w : Word) : (s.wrCap i w).ramsOk = true := by
  rw [ramsOk_iff] at *
  simp only [wrCap, blockRam_wrote, captured_wrote, emit_wrote, knots_wrote, scales_wrote, engine_wrote]
  exact ⟨h.1, Sparse.wf_put h.2.1 _ _, h.2.2⟩

theorem wrEmit_ramsOk {s : State} (h : s.ramsOk = true) (i : Nat) (w : Word) : (s.wrEmit i w).ramsOk = true := by
  rw [ramsOk_iff] at *
  simp only [wrEmit, blockRam_wrote, captured_wrote, emit_wrote, knots_wrote, scales_wrote, engine_wrote]
  exact ⟨h.1, h.2.1, Sparse.wf_put h.2.2.1 _ _, h.2.2.2⟩

theorem wrKnot_ramsOk {s : State} (h : s.ramsOk = true) (k w : Nat) (v : Word) : (s.wrKnot k w v).ramsOk = true := by
  rw [ramsOk_iff] at *
  simp only [wrKnot, blockRam_wrote, captured_wrote, emit_wrote, knots_wrote, scales_wrote, engine_wrote]
  exact ⟨h.1, h.2.1, h.2.2.1, Sparse.wf_put h.2.2.2.1 _ _, h.2.2.2.2⟩

theorem wrScale_ramsOk {s : State} (h : s.ramsOk = true) (e w : Nat) (v : Word) :
    (s.wrScale e w v).ramsOk = true := by
  rw [ramsOk_iff] at *
  simp only [wrScale, blockRam_wrote, captured_wrote, emit_wrote, knots_wrote, scales_wrote, engine_wrote]
  exact ⟨h.1, h.2.1, h.2.2.1, h.2.2.2.1, Sparse.wf_put h.2.2.2.2.1 _ _, h.2.2.2.2.2⟩

theorem wrRam_ramsOk {s : State} (h : s.ramsOk = true) (b i : Nat) (v : Word) : (s.wrRam b i v).ramsOk = true := by
  rw [ramsOk_iff] at *
  simp only [wrRam, blockRam_wrote, captured_wrote, emit_wrote, knots_wrote, scales_wrote, engine_wrote]
  exact ⟨Sparse.wf_put h.1 _ _, h.2⟩

theorem wrRams_ramsOk {s : State} (h : s.ramsOk = true) (b i : Nat) (l : List Word) :
    (s.wrRams b i l).ramsOk = true := by
  unfold wrRams
  generalize (List.range l.length).zip l = z
  induction z generalizing s with
  | nil => exact h
  | cons e z ih => exact ih (wrRam_ramsOk h b _ _)

/-- Updates that leave every RAM alone. -/
@[simp] theorem rams_wr (s : State) (f : Field) (v : Nat) : (s.wr f v).rams = s.rams := (rfl)
@[simp] theorem rams_bump (s : State) (f : Field) (n : Nat) : (s.bump f n).rams = s.rams := (rfl)
@[simp] theorem rams_record (s : State) (f : Field) (n : Nat) : (s.record f n).rams = s.rams := (rfl)
@[simp] theorem rams_raise (s : State) (f : Field) : (s.raise f).rams = s.rams := (rfl)
@[simp] theorem rams_peak (s : State) (f : Field) (v : Nat) : (s.peak f v).rams = s.rams := (rfl)
@[simp] theorem rams_watch (s : State) (q n : Nat) : (s.watch q n).rams = s.rams := (rfl)
@[simp] theorem rams_wrK (s : State) (k v d : Nat) : (s.wrK k v d).rams = s.rams := (rfl)
@[simp] theorem rams_stageWr (s : State) (f : Field) (v : Nat) : (s.stageWr f v).rams = s.rams := (rfl)
@[simp] theorem rams_stageK (s : State) (k v d : Nat) : (s.stageK k v d).rams = s.rams := (rfl)
@[simp] theorem rams_modCell (s : State) (c : Nat) (f : Cell → Cell) : (s.modCell c f).rams = s.rams := (rfl)
@[simp] theorem rams_modPort (s : State) (n : Nat) (f : Port → Port) : (s.modPort n f).rams = s.rams := (rfl)
@[simp] theorem rams_modBlock (s : State) (b : Nat) (f : Block → Block) : (s.modBlock b f).rams = s.rams := (rfl)
@[simp] theorem rams_grant (s : State) (c : Nat) : (s.grant c).rams = s.rams := (rfl)
@[simp] theorem rams_modBind (s : State) (n : Nat) (f : Bind → Bind) : (s.modBind n f).rams = s.rams := (rfl)
@[simp] theorem rams_modQueue (s : State) (q : Nat) (f : Queue → Queue) : (s.modQueue q f).rams = s.rams := (rfl)
@[simp] theorem rams_modWindow (s : State) (w : Nat) (f : Window → Window) : (s.modWindow w f).rams = s.rams := (rfl)
@[simp] theorem rams_modTick (s : State) (f : TickUnit → TickUnit) : (s.modTick f).rams = s.rams := (rfl)
@[simp] theorem rams_modGw (s : State) (f : Gateway → Gateway) : (s.modGw f).rams = s.rams := (rfl)
@[simp] theorem rams_modBridge (s : State) (f : Bridge → Bridge) : (s.modBridge f).rams = s.rams := (rfl)
@[simp] theorem rams_modWear (s : State) (f : Wear → Wear) : (s.modWear f).rams = s.rams := (rfl)
@[simp] theorem rams_modPair (s : State) (f : Pair → Pair) : (s.modPair f).rams = s.rams := (rfl)
@[simp] theorem rams_modPower (s : State) (f : Power → Power) : (s.modPower f).rams = s.rams := (rfl)
@[simp] theorem rams_advance (s : State) (t : Nat) : (s.advance t).rams = s.rams := (rfl)
@[simp] theorem rams_advanceClk (s : State) (t : Nat) : (s.advanceClk t).rams = s.rams := (rfl)
@[simp] theorem rams_setStage (s : State) (m : Sparse Nat) : (s.setStage m).rams = s.rams := (rfl)
@[simp] theorem rams_crossToward (s : State) (b : Nat) : (s.crossToward b).rams = s.rams := (rfl)
@[simp] theorem rams_crossAway (s : State) (b : Nat) : (s.crossAway b).rams = s.rams := (rfl)
@[simp] theorem rams_draw (s : State) : s.draw.2.rams = s.rams := (rfl)
@[simp] theorem rams_post (s : State) (cls code unit level : Nat) (body : List Nat) :
    (s.post cls code unit body level).rams = s.rams := (rfl)

@[simp] theorem rams_postAt (s : State) (time cls code unit level : Nat) (body : List Nat) :
    (s.postAt time cls code unit body level).rams = s.rams := (rfl)

/-- An update of the engine that leaves the patch RAM alone leaves every RAM alone. -/
@[simp] theorem rams_modEngine (s : State) {f : Engine → Engine} (h : (f s.engine).patch = s.engine.patch) :
    (s.modEngine f).rams = s.rams := by
  rw [modEngine, rams_mk, h, rams_eta]

@[simp] theorem rams_onlyIf (b : Bool) (f : State → State) (s : State) :
    (onlyIf b f s).rams = if b then (f s).rams else s.rams := by
  cases b <;> rfl

@[simp] theorem rams_each {α : Type} (l : List α) {f : α → State → State} (s : State)
    (h : ∀ a t, (f a t).rams = t.rams) : (each l f s).rams = s.rams := each_same l s fun a _ t => h a t

@[simp] theorem rams_postOnce (s : State) (key cls code unit : Nat) (body : List Nat) :
    (s.postOnce key cls code unit body).rams = s.rams := by
  unfold postOnce; split <;> rfl

@[simp] theorem rams_queueEvent (s : State) (q code cause : Nat) (rest : List Nat) :
    (s.queueEvent q code cause rest).rams = s.rams := (rfl)

@[simp] theorem rams_compareMarks (s : State) (q : Nat) : (s.compareMarks q).rams = s.rams := by
  rw [compareMarks_eq]; rfl

@[simp] theorem rams_send (s : State) (o : Outgoing) : (s.send o).rams = s.rams := by rw [send_eq]; rfl
@[simp] theorem rams_forward (s : State) (i : StreamItem) : (s.forward i).rams = s.rams := by rw [forward_eq]; rfl

theorem rams_marksOnly {s t : State} (h : s.marksOnly t) : t.rams = s.rams := by obtain ⟨_, _, _, rfl⟩ := h; rfl

@[simp] theorem rams_landQueue (s : State) (q k : Nat) : (s.landQueue q k).rams = s.rams :=
  rams_marksOnly (marksOnly_landQueue (marksOnly_refl s) q k)
@[simp] theorem rams_settle (s : State) (q : Nat) : (s.settle q).rams = s.rams :=
  rams_marksOnly (marksOnly_settle (marksOnly_refl s) q)
@[simp] theorem rams_settleAll (s : State) : s.settleAll.rams = s.rams := rams_each _ s fun q t => rams_settle t q
@[simp] theorem rams_markNow (s : State) (q : Nat) : (s.markNow q).rams = s.rams :=
  rams_marksOnly (marksOnly_markNow (marksOnly_refl s) q)
@[simp] theorem rams_pushPacket (s : State) (q : Nat) (ws : List Nat) : (s.pushPacket q ws).rams = s.rams :=
  rams_marksOnly (marksOnly_pushPacket (marksOnly_refl s) q ws)
@[simp] theorem rams_pushBulk (s : State) (q : Nat) (ws : List Nat) : (s.pushBulk q ws).rams = s.rams :=
  rams_marksOnly (marksOnly_pushBulk (marksOnly_refl s) q ws)

@[simp] theorem rams_rewindOpen (s : State) (q cause : Nat) (closed : Bool) : (s.rewindOpen q cause closed).rams = s.rams := by
  by_cases h : (s.queue q).opened = [] <;> simp [rewindOpen, h]

@[simp] theorem rams_rewind (s : State) (q cause : Nat) (closed : Bool) : (s.rewind q cause closed).rams = s.rams := by
  simp [rewind]

@[simp] theorem rams_dropPacket (s : State) (q : Nat) : (s.dropPacket q).2.rams = s.rams :=
  rams_marksOnly (marksOnly_dropPacket (marksOnly_refl s) q)

@[simp] theorem rams_emptyQueue (s : State) (q cause : Nat) : (s.emptyQueue q cause).rams = s.rams := by
  simp [emptyQueue]

@[simp] theorem rams_hostAbort (s : State) (q : Nat) : (s.hostAbort q).rams = s.rams := by simp [hostAbort]

@[simp] theorem rams_hostPush (s : State) (q w : Nat) (last : Bool) : (s.hostPush q w last).rams = s.rams := by
  simp only [hostPush]
  repeat' split
  all_goals simp

@[simp] theorem rams_badPacket (s : State) (q : Nat) (h : List QWord) : (s.badPacket q h).rams = s.rams := by
  simp [badPacket]

theorem rams_popWord {s t : State} {q : Nat} {w : QWord} (h : s.popWord q = some (w, t)) : t.rams = s.rams := rams_marksOnly (marksOnly_popWord (marksOnly_refl s) h)

theorem rams_takePacket {s t : State} {q : Nat} {h : List QWord} (hs : s.takePacket q = some (h, t)) :
    t.rams = s.rams := by
  simp only [takePacket] at hs
  split at hs
  · cases hs
  · simp only [Option.some.injEq, Prod.mk.injEq] at hs
    obtain ⟨rfl, rfl⟩ := hs
    simp

/-! ### The canonical form, read off the RAMs -/

/-- The canonical form of `ramsOk`, of the RAMs by themselves. -/
def okRams (r : Sparse Word × Sparse Word × Sparse Word × Sparse Word × Sparse Word × Sparse Word) : Prop :=
  Sparse.wf 0 r.1 = true ∧ Sparse.wf imgDefault r.2.1 = true ∧ Sparse.wf imgDefault r.2.2.1 = true ∧
    Sparse.wf 0 r.2.2.2.1 = true ∧ Sparse.wf 0 r.2.2.2.2.1 = true ∧ Sparse.wf 0 r.2.2.2.2.2 = true

theorem ramsOk_iff_okRams (s : State) : s.ramsOk = true ↔ okRams s.rams := ramsOk_iff s

@[simp] theorem okRams_ite (c : Prop) [Decidable c]
    (x y : Sparse Word × Sparse Word × Sparse Word × Sparse Word × Sparse Word × Sparse Word) :
    okRams (if c then x else y) ↔ if c then okRams x else okRams y := by
  split <;> rfl

@[simp] theorem ok_wrCap {s : State} (h : okRams s.rams) (i : Nat) (w : Word) : okRams (s.wrCap i w).rams :=
  (ramsOk_iff_okRams _).1 (wrCap_ramsOk ((ramsOk_iff_okRams _).2 h) i w)
@[simp] theorem ok_wrEmit {s : State} (h : okRams s.rams) (i : Nat) (w : Word) : okRams (s.wrEmit i w).rams :=
  (ramsOk_iff_okRams _).1 (wrEmit_ramsOk ((ramsOk_iff_okRams _).2 h) i w)
@[simp] theorem ok_wrKnot {s : State} (h : okRams s.rams) (k w : Nat) (v : Word) : okRams (s.wrKnot k w v).rams :=
  (ramsOk_iff_okRams _).1 (wrKnot_ramsOk ((ramsOk_iff_okRams _).2 h) k w v)
@[simp] theorem ok_wrScale {s : State} (h : okRams s.rams) (e w : Nat) (v : Word) : okRams (s.wrScale e w v).rams :=
  (ramsOk_iff_okRams _).1 (wrScale_ramsOk ((ramsOk_iff_okRams _).2 h) e w v)
@[simp] theorem ok_wrRam {s : State} (h : okRams s.rams) (b i : Nat) (v : Word) : okRams (s.wrRam b i v).rams :=
  (ramsOk_iff_okRams _).1 (wrRam_ramsOk ((ramsOk_iff_okRams _).2 h) b i v)
@[simp] theorem ok_wrRams {s : State} (h : okRams s.rams) (b i : Nat) (l : List Word) : okRams (s.wrRams b i l).rams :=
  (ramsOk_iff_okRams _).1 (wrRams_ramsOk ((ramsOk_iff_okRams _).2 h) b i l)

@[simp] theorem ok_each {α : Type} (l : List α) {f : α → State → State} {s : State} (h : okRams s.rams)
    (hf : ∀ a t, okRams t.rams → okRams (f a t).rams) : okRams (each l f s).rams :=
  each_keeps (P := fun t => okRams t.rams) l h fun a _ => hf a

end State
end Sys2Proof.Machine
end

