-- ==== Sys2Proof/Laws/Engine.lean ====
section
/-! SUPPORT. The command engine: what a command packet that starts in this step comes to, and what the decision of its
status leaves. -/

namespace Sys2Proof.Machine
namespace State

/-! ### Replies that are owed -/

theorem splitEnded_none {l : List Handoff} (h : l.all (·.ended.isNone) = true) : splitEnded l = none := by
  induction l with
  | nil => rfl
  | cons a l ih =>
    simp only [List.all_cons, Bool.and_eq_true, Option.isNone_iff_eq_none] at h
    simp [splitEnded, h.1, ih h.2]

/-- Nothing is owed: no packet was rewound and no handed-off command has ended. -/
theorem replyOwed_none {s : State} (h1 : s.engine.rewound = []) (h2 : s.engine.handoffs.all (·.ended.isNone) = true) :
    s.replyOwed = s := by
  have h : s.replyHandoff = s := by simp [replyHandoff, splitEnded_none h2]
  simp only [replyOwed, h1, each_nil]
  exact each_keeps (P := fun t => t = s) _ rfl fun a _ t ht => ht ▸ h

/-! ### A command that starts -/

/-- A commit that goes live at the next boundary that it waits for, joined by a further COMMIT of the same lock. -/
def joinedCommit (p : Packet) (slot skip : Nat) : Option PendingCommit → Option PendingCommit
  | some c => some { c with others := c.others ++ [slot] }
  | none => some ⟨p.seq.toNat, slot, skip, []⟩

/-- The end of a command in this step, by its outcome (R394, R403, R404). -/
def ended (c : CmdSpec) (p : Packet) (slot : Nat) : CmdOut → State
  | .done st rs k t =>
    ((t.carry c p slot (t.tickNo + 1)).carryResult c.opcode p.seq.toNat p.src st rs).complete c p slot st rs k true
  | .handed tag t => (t.carry c p slot (t.tickNo + 1)).modEngine fun g => { g with handoffs := g.handoffs ++
      [⟨c.opcode, p.seq.toNat, p.quiet, p.args.length, p.args, p.src, slot, tag, none⟩] }
  | .locked rs skip t =>
    let t := (t.carry c p slot (t.rd F.CE_COMMIT.TICKNO)).complete c p slot 0 rs 1 false
    if t.stageShut then t.modEngine fun g => { g with next := joinedCommit p slot (skip - 1) g.next }
    else t.modEngine fun g => { g with commit := joinedCommit p slot skip g.commit }

/-- The engine is idle again. -/
def engineIdle (s : State) : State := (s.wr F.CE_STAT.EXEC 0).wr F.CE_STAT.WAIT 0

theorem start_eq (c : CmdSpec) (p : Packet) (slot : Nat) (s : State)
    (h : (s.modEntry slot fun e => { e with state := 1 }).refuse c p = none) :
    s.start c p slot = ended c p slot (c.effect p (s.modEntry slot fun e => { e with state := 1 })) := by
  simp only [start, h]
  cases c.effect p (s.modEntry slot fun e => { e with state := 1 }) <;> rfl

/-- A command that waits for nothing starts. -/
theorem waitOrStart_starts {c : CmdSpec} {p : Packet} {i : Nat} {s : State} (h : s.waitCause c p true = 0) :
    s.waitOrStart c p (some i) 0 = engineIdle ((s.modEngine fun g => { g with waiting := none }).start c p i) := by
  simp [waitOrStart, h, engineIdle]

/-- A state that differs from `s` in the ledger only, and in what goes out over the tether. -/
def ledgerOnly (s t : State) : Prop :=
  ∃ l c o v, t = { s with engine := { s.engine with ledger := l, completions := c }
                          pair := { s.pair with out := o, overflow := v } }

theorem ledgerOnly_refl (s : State) : s.ledgerOnly s := ⟨_, _, _, _, rfl⟩
theorem ledgerOnly_setLedger {s t : State} (h : s.ledgerOnly t) (f : Sparse LedgerEntry → Sparse LedgerEntry) :
    s.ledgerOnly (t.setLedger f) := by obtain ⟨_, _, _, _, rfl⟩ := h; exact ⟨_, _, _, _, rfl⟩
theorem ledgerOnly_send {s t : State} (h : s.ledgerOnly t) (o : Outgoing) : s.ledgerOnly (t.send o) := by
  obtain ⟨_, _, _, _, rfl⟩ := h; rw [send_eq]; exact ⟨_, _, _, _, rfl⟩
theorem ledgerOnly_sendEntry {s t : State} (h : s.ledgerOnly t) (e : LedgerEntry) : s.ledgerOnly (t.sendEntry e) := by
  unfold sendEntry; split
  · exact ledgerOnly_send h _
  · exact h
theorem ledgerOnly_modEntry {s t : State} (h : s.ledgerOnly t) (i : Nat) (f : LedgerEntry → LedgerEntry) :
    s.ledgerOnly (t.modEntry i f) := by
  unfold modEntry; split
  · exact ledgerOnly_sendEntry (ledgerOnly_setLedger h _) _
  · exact h
theorem ledgerOnly_closeEntry {s t : State} (h : s.ledgerOnly t) (i v : Nat) : s.ledgerOnly (t.closeEntry i v) := by
  unfold closeEntry; split
  · dsimp only
    refine ledgerOnly_sendEntry ?_ _
    have h' : s.ledgerOnly (t.modEngine fun g => { g with completions := g.completions + 1 }) := by
      obtain ⟨_, _, _, _, rfl⟩ := h; exact ⟨_, _, _, _, rfl⟩
    split <;> exact ledgerOnly_setLedger h' _
  · exact h

/-- A change of a ledger entry changes the ledger only, and what goes out over the tether. -/
theorem modEntry_only (s : State) (i : Nat) (f : LedgerEntry → LedgerEntry) : s.ledgerOnly (s.modEntry i f) :=
  ledgerOnly_modEntry (ledgerOnly_refl s) i f
theorem closeEntry_only (s : State) (i v : Nat) : s.ledgerOnly (s.closeEntry i v) :=
  ledgerOnly_closeEntry (ledgerOnly_refl s) i v

/-- The entry of the ledger is opened beside every state that a wait cause reads. -/
theorem openEntry_only {seq n : Nat} {track : Bool} {s t : State} {i : Nat} (h : s.openEntry seq n track = some (i, t)) :
    s.ledgerOnly t := by
  simp only [openEntry] at h
  split at h
  · simp only [Option.some.injEq, Prod.mk.injEq] at h
    obtain ⟨-, rfl⟩ := h
    exact ledgerOnly_sendEntry (ledgerOnly_setLedger (ledgerOnly_setLedger (ledgerOnly_refl s) _) _) _
  · split at h
    · simp only [Option.some.injEq, Prod.mk.injEq] at h
      obtain ⟨-, rfl⟩ := h
      exact ledgerOnly_sendEntry (ledgerOnly_setLedger (ledgerOnly_setLedger (ledgerOnly_refl s) _) _) _
    · cases h

/-- The keys of the fields in which a comparison with the watermarks may show. -/
def markKeys (q : Nat) : List Nat :=
  [(F.QMON.HNOT q).key, (F.QMON.LNOT q).key, (F.QMON.HCROSS q).key, (F.QMON.LCROSS q).key, (F.QSTAT.HI q).key,
    (F.QSTAT.LO q).key]

theorem keepsRegs_mono {s t : State} {ks ls : List Nat} (h : s.keepsRegs ks t) (hl : ∀ k ∈ ks, k ∈ ls) :
    s.keepsRegs ls t := fun f hf => h f fun hk => hf (hl _ hk)

theorem keepsRegs_wr_of {s t : State} {ks : List Nat} (h : s.keepsRegs ks t) {f : Field} (v : Nat) (hf : f.key ∈ ks) :
    s.keepsRegs ks (t.wr f v) := fun g hg => by
  rw [rd_wr_ne t v fun e => hg (e ▸ hf), h g hg]

theorem keepsRegs_bump_of {s t : State} {ks : List Nat} (h : s.keepsRegs ks t) {f : Field} (n : Nat) (hf : f.key ∈ ks) :
    s.keepsRegs ks (t.bump f n) := fun g hg => by
  rw [rd_bump_ne t n fun e => hg (e ▸ hf), h g hg]

theorem keepsRegs_raise_of {s t : State} {ks : List Nat} (h : s.keepsRegs ks t) {f : Field} (hf : f.key ∈ ks) :
    s.keepsRegs ks (t.raise f) := fun g hg => by
  rw [rd_raise_ne _ fun e => hg (e ▸ hf), h g hg]

/-- The watermark comparison of a queue shows in six fields of that queue. -/
theorem keepsRegs_compareMarks {s t : State} {ks : List Nat} (q : Nat) (h : s.keepsRegs ks t)
    (hk : ∀ k ∈ markKeys q, k ∈ ks) : s.keepsRegs ks (t.compareMarks q) := by
  have m : ∀ {k}, k ∈ markKeys q → k ∈ ks := fun h => hk _ h
  refine keepsRegs_wr_of (keepsRegs_wr_of ?_ _ (m (by simp [markKeys]))) _ (m (by simp [markKeys]))
  refine onlyIf_keeps _ ?_ fun h =>
    keepsRegs_bump_of (keepsRegs_raise_of h (m (by simp [markKeys]))) _ (m (by simp [markKeys]))
  exact onlyIf_keeps _ h fun h =>
    keepsRegs_bump_of (keepsRegs_raise_of h (m (by simp [markKeys]))) _ (m (by simp [markKeys]))

theorem keepsRegs_landQueue {s t : State} {ks : List Nat} (q k : Nat) (h : s.keepsRegs ks t) :
    s.keepsRegs ks (t.landQueue q k) := by
  unfold landQueue; split <;> exact h

theorem keepsRegs_settle {s t : State} {ks : List Nat} (q : Nat) (h : s.keepsRegs ks t)
    (hk : ∀ k ∈ markKeys q, k ∈ ks) : s.keepsRegs ks (t.settle q) := by
  unfold settle; dsimp only; split
  · exact h
  · exact keepsRegs_landQueue q _ (each_keeps (P := s.keepsRegs ks) _ h
      fun k _ _ h => keepsRegs_compareMarks q (keepsRegs_landQueue q k h) hk)

theorem keepsRegs_markNow {s t : State} {ks : List Nat} (q : Nat) (h : s.keepsRegs ks t)
    (hk : ∀ k ∈ markKeys q, k ∈ ks) : s.keepsRegs ks (t.markNow q) := by
  unfold markNow
  exact each_keeps (P := s.keepsRegs ks) _ h fun _ _ _ h => keepsRegs_compareMarks q h hk

theorem keepsRegs_dropPacket {s t : State} {ks : List Nat} (q : Nat) (h : s.keepsRegs ks t)
    (hk : ∀ k ∈ markKeys q, k ∈ ks) : s.keepsRegs ks (t.dropPacket q).2 := by
  unfold dropPacket; dsimp only; split <;> exact keepsRegs_settle q h hk

theorem keepsRegs_pushPacket {s t : State} {ks : List Nat} (q : Nat) (ws : List Nat) (h : s.keepsRegs ks t)
    (hk : ∀ k ∈ markKeys q, k ∈ ks) : s.keepsRegs ks (t.pushPacket q ws) := by
  unfold pushPacket; split
  · exact h
  · exact keepsRegs_settle q h hk

/-- What comes into the queue without a packet before it (log entry 6). -/
theorem placed_only (op : Nat) (p : Packet) (s : State) : s.marksOnly (s.placed op p) := by
  unfold placed; split
  · exact marksOnly_pushPacket (marksOnly_refl s) _ _
  · exact marksOnly_refl s

theorem keepsRegs_placed (op : Nat) (p : Packet) (s : State) : s.keepsRegs (markKeys qCommand) (s.placed op p) := by
  unfold placed
  split
  · exact keepsRegs_pushPacket _ _ (keepsRegs_refl _ _) fun _ h => h
  · exact keepsRegs_refl _ _

theorem queue_placed_reply (op : Nat) (p : Packet) (s : State) : (s.placed op p).queue qReply = s.queue qReply := by
  unfold placed
  split
  · exact queue_pushPacket_ne _ _ _ _ (by decide)
  · rfl

/-- The keys of the fields in which the pop of a command packet may show. -/
def popKeys : List Nat := F.CE_STAT.WAIT.key :: markKeys qCommand

/-- What popping the packet may change. -/
theorem popped_eq (op : Nat) (p : Packet) (s : State) :
    s.popped op p = { s with queues := (s.popped op p).queues, regs := (s.popped op p).regs,
                             recorded := (s.popped op p).recorded, pair := (s.popped op p).pair } := by
  unfold popped
  split
  · cases (op == 0x51) <;> rfl
  · have h : s.marksOnly ((((s.placed op p).wr F.CE_STAT.WAIT 0).markNow qCommand).dropPacket qCommand).2 := by
      refine marksOnly_dropPacket (marksOnly_markNow ?_ _) _
      obtain ⟨_, _, _, h⟩ := placed_only op p s
      rw [h]; exact ⟨_, _, _, rfl⟩
    obtain ⟨_, _, _, h⟩ := h
    rw [h]

theorem keepsRegs_popped (op : Nat) (p : Packet) (s : State) : s.keepsRegs popKeys (s.popped op p) := by
  have hk : ∀ k ∈ markKeys qCommand, k ∈ popKeys := fun k h => List.mem_cons_of_mem _ h
  have hw : ∀ t, s.keepsRegs popKeys t → s.keepsRegs popKeys (t.wr F.CE_STAT.WAIT 0) := fun t h =>
    keepsRegs_wr_of h _ List.mem_cons_self
  unfold popped
  split
  · cases (op == 0x51) <;> exact hw _ (keepsRegs_refl _ _)
  · exact keepsRegs_dropPacket _ (keepsRegs_markNow _ (hw _ (keepsRegs_mono (keepsRegs_placed op p s) hk)) hk) hk

theorem queue_popped_reply (op : Nat) (p : Packet) (s : State) : (s.popped op p).queue qReply = s.queue qReply := by
  unfold popped
  split
  · cases (op == 0x51) <;> rfl
  · rw [queue_dropPacket_ne _ (by decide), queue_markNow, if_neg (by decide)]
    exact queue_placed_reply op p s

theorem credit_reply_of {s t : State} (h : s.keepsRegs popKeys t) (hq : t.queue qReply = s.queue qReply) :
    t.credit qReply = s.credit qReply := by
  have hc := h (F.QCTL.CEIL qReply) (by decide)
  have ho : ∀ t : State, t.queueOn qReply = true := fun t => by simp [queueOn, qReply, isBulk]
  simp only [credit, ho, if_true, hc, hq]

theorem credit_popped_reply (op : Nat) (p : Packet) (s : State) : (s.popped op p).credit qReply = s.credit qReply :=
  credit_reply_of (keepsRegs_popped op p s) (queue_popped_reply op p s)

/-- A packet is its own first packet, with every word as written. -/
theorem head_packet (ws : List Nat) : Queue.head (packet ws) = packet ws := by
  induction ws with
  | nil => rfl
  | cons w t ih => cases t with
    | nil => rfl
    | cons v t => simp [packet, Queue.head, ih]

theorem packet_good (ws : List Nat) : (packet ws).any (·.bad.isSome) = false := by
  induction ws with
  | nil => rfl
  | cons w t ih => cases t with
    | nil => rfl
    | cons v t => simp [packet, ih]

theorem packet_ne_nil (op : Nat) (p : Packet) : packet (packetWords op p) ≠ [] := by
  simp [packetWords, packet]

/-- The wait slot of the engine and the packets behind it. -/
def line (s : State) : Option WaitingCmd × List (Nat × Packet × Nat) := (s.engine.waiting, s.engine.behind)

theorem line_marksOnly {s t : State} (h : s.marksOnly t) : t.line = s.line := by obtain ⟨_, _, _, rfl⟩ := h; rfl
theorem line_ledgerOnly {s t : State} (h : s.ledgerOnly t) : t.line = s.line := by obtain ⟨_, _, _, _, rfl⟩ := h; rfl
@[simp] theorem line_pushPacket (q : Nat) (ws : List Nat) (s : State) : (s.pushPacket q ws).line = s.line :=
  line_marksOnly (marksOnly_pushPacket (marksOnly_refl s) q ws)
@[simp] theorem line_closeEntry (i v : Nat) (s : State) : (s.closeEntry i v).line = s.line :=
  line_ledgerOnly (closeEntry_only s i v)
@[simp] theorem line_forward (i : StreamItem) (s : State) : (s.forward i).line = s.line := by rw [forward_eq]; rfl
@[simp] theorem line_countStatus (v : Nat) (s : State) : (s.countStatus v).line = s.line := by
  unfold countStatus; repeat' split
  all_goals rfl
@[simp] theorem line_carryResult (op seq : Nat) (src : Source) (v : Nat) (rs : List Nat) (s : State) :
    (s.carryResult op seq src v rs).line = s.line := onlyIf_same (g := line) _ _ (line_forward _ _)
@[simp] theorem line_endStream (seq : Nat) (src : Source) (v : Nat) (s : State) : (s.endStream seq src v).line = s.line :=
  onlyIf_same (g := line) _ _ rfl
@[simp] theorem line_replyRewound (s : State) : s.replyRewound.line = s.line := by
  unfold replyRewound; split
  · rfl
  · split
    · rfl
    · dsimp only
      refine (onlyIf_same (g := line) _ _ rfl).trans ?_
      simp only [reply, line_pushPacket]
      rfl
@[simp] theorem line_replyHandoff (s : State) : s.replyHandoff.line = s.line := by
  unfold replyHandoff; split
  · rfl
  · dsimp only; split
    · rfl
    · simp only [line_closeEntry, line_carryResult, line_endStream]
      refine (onlyIf_same (g := line) _ _ ?_).trans ((onlyIf_same (g := line) _ _ rfl).trans ?_)
      · simp [reply]
      · simp only [line_countStatus]; rfl

/-- A reply that is owed leaves the wait slot and the packets behind it alone. -/
theorem replyOwed_line (s : State) : s.replyOwed.line = s.line :=
  (each_same (g := line) _ _ fun _ _ t => line_replyHandoff t).trans
    (each_same (g := line) _ _ fun _ _ t => line_replyRewound t)

theorem behind_of_offers {op : Nat} {p : Packet} {s : State} (ho : s.offers op p = true) : s.engine.behind = [] := by
  simp only [offers, Bool.and_eq_true, beq_iff_eq] at ho; exact ho.1

/-- A queue's visible words before the pop: `placed` leaves WAIT and due comparisons alone. -/
theorem queue_ready_vis (s : State) :
    (((s.wr F.CE_STAT.WAIT 0).markNow qCommand).queue qCommand).vis = (s.queue qCommand).vis := by
  rw [queue_markNow, if_pos rfl]; rfl

/-- The packet that the engine pops next: the state it is popped from is `placed`, the one it runs in `popped`. -/
theorem popNext_eq {op : Nat} {p : Packet} {s : State} (ho : s.offers op p = true) :
    (if p.src = .stream then s else s.placed op p).popNext (op, p, 0) = (s.popped op p).take (specOf op) p := by
  by_cases hsrc : p.src = .stream
  · simp [popNext, popped, hsrc]
  · simp only [popNext, popped, hsrc, if_false]
    simp only [offers, hsrc, Bool.and_eq_true, Bool.or_eq_true, beq_iff_eq, false_or] at ho
    by_cases hv : (s.queue qCommand).vis = []
    · have h1 : Queue.head ((s.placed op p).queue qCommand).vis = packet (packetWords op p) := by
        simp only [placed, hv, if_true, queue_pushPacket_plain _ _ (show isBulk qCommand = false by decide),
          List.nil_append, head_packet]
      simp only [takePacket, queue_ready_vis, h1, packet_ne_nil, if_false, packet_good, Bool.false_eq_true]
    · have hp : s.placed op p = s := by simp [placed, hv]
      have hh : Queue.head (s.queue qCommand).vis ≠ [] := by
        cases hc : (s.queue qCommand).vis with
        | nil => exact absurd hc hv
        | cons w t => cases hl : w.last <;> simp [Queue.head, hl]
      have ho2 : (Queue.head (s.queue qCommand).vis).any (·.bad.isSome) = false := by
        have := ho.2
        split at this
        · rename_i h; exact absurd h hh
        · simp only [Bool.and_eq_true, Bool.not_eq_true'] at this; exact this.2
      rw [hp]
      simp only [takePacket, queue_ready_vis, hh, if_false, ho2, Bool.false_eq_true]

/-- A packet that the engine's next can be comes before it (log entry 6). -/
theorem arrive_eq {op : Nat} {p : Packet} {s : State} (ho : s.offers op p = true) :
    s.arrive op 0 p = some ((if p.src = .stream then s else s.placed op p).modEngine
      fun g => { g with behind := [(op, p, 0)] }) := by
  have hb : s.engine.behind = [] := behind_of_offers ho
  have hl : ∀ u : State, u.engine.behind = [] → (u.modEngine fun g => { g with behind := g.behind ++ [(op, p, 0)] }) =
      u.modEngine fun g => { g with behind := [(op, p, 0)] } := fun u h => by simp [modEngine, h]
  by_cases hsrc : p.src = .stream
  · simp only [arrive, hsrc, if_true, hl s hb]
  · simp only [offers, hsrc, Bool.and_eq_true, Bool.or_eq_true, beq_iff_eq, false_or] at ho
    simp only [arrive, hsrc, if_false, hb, List.filter_nil, List.length_nil, Queue.nth]
    by_cases hv : Queue.head (s.queue qCommand).vis = []
    · have hv' : (s.queue qCommand).vis = [] := by
        cases hc : (s.queue qCommand).vis with
        | nil => rfl
        | cons w t => cases hl : w.last <;> simp [hc, Queue.head, hl] at hv
      simp only [hv, Bool.and_eq_true, beq_iff_eq, Bool.not_eq_true', decide_eq_true_eq] at ho
      have hpl : s.hostPacket (packetWords op p) = s.placed op p := by simp [hostPacket, placed, ho.2.2, hv']
      have hbp : (s.placed op p).engine.behind = [] := by
        obtain ⟨_, _, _, h⟩ := placed_only op p s; rw [h]; exact hb
      simp [hv, ho.2.1.1, ho.2.1.2, ho.2.2, hpl, hl _ hbp]
    · have hpk : packetIs op p (Queue.head (s.queue qCommand).vis) = true := by
        have := ho.2
        split at this
        · rename_i h; exact absurd h hv
        · simp only [Bool.and_eq_true] at this; exact this.1
      have hv' : (s.queue qCommand).vis ≠ [] := fun h => hv (by simp [h, Queue.head])
      simp [hv, hpk, placed, hv', hl s hb]

/-- The engine takes a packet that it may take at once, and goes on from what that leaves (R387, R393). -/
theorem meet_of_offers {op : Nat} {p : Packet} {s : State} (ho : s.offers op p = true) (hw : s.engine.waiting = none)
    (hr : s.engine.rewound = []) (hh : s.engine.handoffs.all (·.ended.isNone) = true) (hc : 65 ≤ s.credit qReply) :
    s.meet op 0 p = pump 3 ((s.popped op p).take (specOf op) p) := by
  have hb : s.engine.behind = [] := behind_of_offers ho
  rw [meet, arrive_eq ho, Option.getD_some]
  generalize hu : (if p.src = .stream then s else s.placed op p) = u
  have hue : u.engine = s.engine := by
    rw [← hu]; split
    · rfl
    · obtain ⟨_, _, _, h⟩ := placed_only op p s; rw [h]
  have huc : u.credit qReply = s.credit qReply := by
    rw [← hu]; split
    · rfl
    · exact credit_reply_of (keepsRegs_mono (keepsRegs_placed op p s) fun k h => List.mem_cons_of_mem _ h)
        (queue_placed_reply op p s)
  have h1 : (u.modEngine fun g => { g with behind := [(op, p, 0)] }).replyOwed =
      u.modEngine fun g => { g with behind := [(op, p, 0)] } :=
    replyOwed_none (by simp [modEngine, hue, hr]) (by simpa [modEngine, hue] using hh)
  have h2 : (u.modEngine fun g => { g with behind := [(op, p, 0)] }).credit qReply = s.credit qReply := huc
  have h3 : (u.modEngine fun g => { g with behind := [(op, p, 0)] }).modEngine (fun g => { g with behind := [] }) = u := by
    show { u with engine := { u.engine with behind := [] } } = u
    have : u.engine.behind = [] := by rw [hue, hb]
    rw [← this]
  have h4 : ¬ s.credit qReply < 65 := by omega
  simp only [goOn, modEngine_engine, Option.isNone_none, hue, hw, List.isEmpty_cons, Bool.and_false, Bool.false_eq_true,
    if_false, List.length_cons, List.length_nil, pump, h1, h2, hr, bne_self_eq_false, h4, decide_false, Bool.or_self, h3]
  rw [← hu, popNext_eq ho]

/-- A command that starts runs its effect in `begun`, ends by its outcome, and leaves the engine idle;
then replies that are owed go out (R387, R393, R394, R404). -/
theorem meet_of_starts {c : CmdSpec} {op : Nat} {p : Packet} {s : State} (hs : specOf op = c) (hop : c.opcode = op)
    (h : s.starts c p = true) :
    s.meet op 0 p = pump 3 (engineIdle (ended c p (s.slotOf c p) (c.effect p (s.begun c p)))) := by
  subst hs
  simp only [starts, free', Bool.and_eq_true, beq_iff_eq, decide_eq_true_eq, Bool.or_eq_true, Bool.not_eq_true',
    Option.isNone_iff_eq_none, Option.isSome_iff_exists] at h
  obtain ⟨⟨⟨⟨⟨⟨⟨⟨⟨⟨⟨⟨-, -⟩, hw⟩, hr⟩, hh⟩, hc⟩, ho⟩, hs⟩, ⟨⟨i, u⟩, hu⟩⟩, hsp⟩, hst⟩, hf⟩, href⟩ := h
  rw [hop] at ho
  rw [meet_of_offers ho hw hr hh hc]
  congr 1
  have hu' : (s.popped op p).openEntry p.seq.toNat ((specOf op).steps (Operand.args p)) p.track = some (i, u) := by
    have h : (s.popped (specOf op).opcode p).openEntry p.seq.toNat ((specOf op).steps (Operand.args p)) p.track =
        some (i, u) := hu
    rwa [hop] at h
  have hs' : (s.popped op p).seqOpen p.seq.toNat = false := by rw [popped_eq]; exact hs
  obtain ⟨l, n, o, v, hl⟩ := openEntry_only hu'
  have hrd : ∀ f : Field, u.rd f = (s.popped op p).rd f := fun f => by rw [hl]; rfl
  have hb : s.begun (specOf op) p = (u.modEngine fun g => { g with waiting := none }).modEntry i
      fun e => { e with state := 1 } := by simp [begun, hu]
  have hi : s.slotOf (specOf op) p = i := by simp [slotOf, hu]
  have hcr : u.credit qReply = s.credit qReply := by
    rw [← credit_popped_reply op p s, hl]; rfl
  have hsp' : u.inSpan = s.inSpan := by
    have h1 : u.tick = s.tick := by rw [hl, popped_eq]
    simp only [inSpan, hrd, h1, keepsRegs_popped op p s F.TK_STATUS.PHASE (by decide)]
  have hlk : u.locked = s.locked := by
    have h1 : u.tick = s.tick := by rw [hl, popped_eq]
    have h2 : u.engine.commit = s.engine.commit := by rw [hl, popped_eq]
    simp only [locked, flag, stageShut, h1, h2, hrd, keepsRegs_popped op p s F.CE_STAT.LOCK (by decide)]
  have hho : u.engine.handoffs = s.engine.handoffs := by rw [hl, popped_eq]
  have hwc : u.waitCause (specOf op) p true = 0 := by
    simp only [waitCause, hsp', hlk, hcr, hho]
    have a1 : ((specOf op).span && !s.inSpan) = false := by cases h1 : (specOf op).span <;> simp_all
    have a2 : ((specOf op).staging && s.locked) = false := by cases h1 : (specOf op).staging <;> simp_all
    have a3 : ¬ s.credit qReply < 65 := by omega
    have a4 : (p.fence && s.engine.handoffs != []) = false := by cases h1 : p.fence <;> simp_all
    simp [a1, a2, a3, a4]
  simp only [take, hs', Bool.false_eq_true, if_false, hu']
  rw [waitOrStart_starts hwc, start_eq, hi, hb]
  rw [← hb]; exact href

/-- A state in which the engine neither holds a command nor a packet, and owes no reply, is where it stops. -/
theorem pump_done {k : Nat} {s : State} (hw : s.engine.waiting = none) (hb : s.engine.behind = []) :
    pump (k + 1) s = s.replyOwed := by
  have h := replyOwed_line s
  simp only [line, Prod.mk.injEq] at h
  simp only [pump, h.1, h.2, hw, hb]

/-- A command packet that starts: the next state of its step. -/
theorem engine_of_starts {c : CmdSpec} {op : Nat} {p : Packet} {s : State} (hs : specOf op = c) (hop : c.opcode = op)
    (h : s.starts c p = true) :
    Machine.engine op p s = .next (pump 3 (engineIdle (ended c p (s.slotOf c p) (c.effect p (s.begun c p))))) := by
  have h' := h
  simp only [starts, free', Bool.and_eq_true, beq_iff_eq, decide_eq_true_eq] at h'
  have hp : s.power.phase = .ready := h'.1.1.1.1.1.1.1.1.1.1.1.1
  have hl : ¬ 63 < p.args.length := by have := h'.1.1.1.1.1.1.1.1.1.1.1.2; omega
  simp only [Machine.engine, hl, if_false, ready_eq _ hp, meet_of_starts hs hop h]

/-! ### The decision of a status -/

/-- A state that differs from `s` in what a status decision may change: registers, queues, the engine, the statuses that a
pair compares, and what goes out over the tether. -/
def statusOnly (s t : State) : Prop :=
  ∃ r x q e l o v, t = { s with regs := r, recorded := x, queues := q, engine := e
                                pair := { s.pair with streamStatus := l, out := o, overflow := v } }

theorem statusOnly_refl (s : State) : s.statusOnly s := ⟨_, _, _, _, _, _, _, rfl⟩
theorem statusOnly_wr {s t : State} (h : s.statusOnly t) (f : Field) (v : Nat) : s.statusOnly (t.wr f v) := by
  obtain ⟨_, _, _, _, _, _, _, rfl⟩ := h; exact ⟨_, _, _, _, _, _, _, rfl⟩
theorem statusOnly_bump {s t : State} (h : s.statusOnly t) (f : Field) (n : Nat) : s.statusOnly (t.bump f n) := by
  obtain ⟨_, _, _, _, _, _, _, rfl⟩ := h; exact ⟨_, _, _, _, _, _, _, rfl⟩
theorem statusOnly_modEngine {s t : State} (h : s.statusOnly t) (f : Engine → Engine) : s.statusOnly (t.modEngine f) := by
  obtain ⟨_, _, _, _, _, _, _, rfl⟩ := h; exact ⟨_, _, _, _, _, _, _, rfl⟩
theorem statusOnly_marks {s t u : State} (h : s.statusOnly t) (hu : t.marksOnly u) : s.statusOnly u := by
  obtain ⟨_, _, _, _, _, _, _, rfl⟩ := h; obtain ⟨_, _, _, rfl⟩ := hu; exact ⟨_, _, _, _, _, _, _, rfl⟩
theorem statusOnly_ledger {s t u : State} (h : s.statusOnly t) (hu : t.ledgerOnly u) : s.statusOnly u := by
  obtain ⟨_, _, _, _, _, _, _, rfl⟩ := h; obtain ⟨_, _, _, _, rfl⟩ := hu; exact ⟨_, _, _, _, _, _, _, rfl⟩
theorem statusOnly_countStatus {s t : State} (h : s.statusOnly t) (v : Nat) : s.statusOnly (t.countStatus v) := by
  unfold countStatus
  split
  · exact statusOnly_bump h _ _
  · split
    · exact statusOnly_bump h _ _
    · split
      · exact statusOnly_bump h _ _
      · exact h
theorem statusOnly_endStream {s t : State} (h : s.statusOnly t) (seq : Nat) (src : Source) (v : Nat) :
    s.statusOnly (t.endStream seq src v) :=
  onlyIf_keeps _ h fun h => by obtain ⟨_, _, _, _, _, _, _, rfl⟩ := h; exact ⟨_, _, _, _, _, _, _, rfl⟩
theorem statusOnly_journal {s t : State} (h : s.statusOnly t) (op v src seq n a b : Nat) :
    s.statusOnly (t.journal op v src seq n a b) :=
  statusOnly_bump (statusOnly_wr (statusOnly_modEngine h _) _ _) _ _

/-- What a status decision leaves of everything else: all of it. -/
theorem complete_only (c : CmdSpec) (p : Packet) (slot status k : Nat) (rs : List Nat) (close : Bool) (s : State) :
    s.statusOnly (s.complete c p slot status rs k close) := by
  unfold complete
  exact onlyIf_keeps _ (onlyIf_keeps _ (onlyIf_keeps _ (statusOnly_endStream (statusOnly_countStatus
    (onlyIf_keeps _ (statusOnly_refl s) fun h => statusOnly_journal h _ _ _ _ _ _ _) _) _ _ _)
    fun h => statusOnly_marks h (marksOnly_pushPacket (marksOnly_refl _) _ _))
    fun h => statusOnly_ledger h (modEntry_only _ _ _)) fun h => statusOnly_ledger h (closeEntry_only _ _ _)

@[simp] theorem queues_journal (op status src seq len a0 a1 : Nat) (s : State) :
    (s.journal op status src seq len a0 a1).queues = s.queues := rfl

@[simp] theorem queues_countStatus (status : Nat) (s : State) : (s.countStatus status).queues = s.queues := by
  unfold countStatus; repeat' split
  all_goals rfl

@[simp] theorem engine_countStatus (status : Nat) (s : State) : (s.countStatus status).engine = s.engine := by
  unfold countStatus; repeat' split
  all_goals rfl

theorem queues_ledgerOnly {s t : State} (h : s.ledgerOnly t) : t.queues = s.queues := by obtain ⟨_, _, _, _, rfl⟩ := h; rfl

@[simp] theorem queues_modEntry (i : Nat) (f : LedgerEntry → LedgerEntry) (s : State) :
    (s.modEntry i f).queues = s.queues := queues_ledgerOnly (modEntry_only s i f)

@[simp] theorem queues_stepEntry (i k : Nat) (s : State) : (s.stepEntry i k).queues = s.queues := queues_modEntry _ _ _

@[simp] theorem queues_closeEntry (i status : Nat) (s : State) : (s.closeEntry i status).queues = s.queues :=
  queues_ledgerOnly (closeEntry_only s i status)

@[simp] theorem engine_pushPacket (q : Nat) (ws : List Nat) (s : State) : (s.pushPacket q ws).engine = s.engine := by
  rw [pushPacket_eq]

/-- Changes of the ledger leave the rest of the engine alone. -/
theorem engine_ledgerOnly {s t : State} (h : s.ledgerOnly t) : t.engine =
    { s.engine with ledger := t.engine.ledger, completions := t.engine.completions } := by
  obtain ⟨_, _, _, _, rfl⟩ := h; rfl

/-- The reply queue after a status decision: the reply packet, unless QUIET withholds it (R391). -/
theorem complete_reply (c : CmdSpec) (p : Packet) (slot status k : Nat) (rs : List Nat) (close : Bool) (s : State) :
    ((s.complete c p slot status rs k close).queue qReply).vis = (s.queue qReply).vis ++
      (if p.quiet && decide (status ≤ 1) then [] else
        packet ([pack [(c.opcode, 10), (status, 4)], pack [(p.seq.toNat, 6), (rs.length, 0)]] ++ rs)) := by
  have hq : ∀ s t : State, t.queues = s.queues → t.queue qReply = s.queue qReply := fun s t h => by simp [queue, h]
  let g (t : State) : List QWord := (t.queue qReply).vis
  have hg : ∀ {s t : State}, t.queues = s.queues → g t = g s := fun h => by simp only [g, hq _ _ h]
  show g _ = g s ++ _
  simp only [complete]
  rw [onlyIf_same (g := g) close _ (hg (queues_closeEntry _ _ _)),
    onlyIf_same (g := g) (decide (0 < k)) _ (hg (queues_stepEntry _ _ _))]
  cases hb : (p.quiet && decide (status ≤ 1))
  · simp only [Bool.not_false, onlyIf_true, reply, g, queue_pushPacket_plain _ _ (show isBulk qReply = false by decide),
      Bool.false_eq_true, if_false]
    congr 1
    show g _ = g s
    rw [endStream, onlyIf_same (g := g) _ _ (hg rfl), hg (queues_countStatus _ _), onlyIf_same (g := g) _ _ (hg rfl)]
  · simp only [Bool.not_true, onlyIf_false, if_true, List.append_nil]
    rw [endStream, onlyIf_same (g := g) _ _ (hg rfl), hg (queues_countStatus _ _), onlyIf_same (g := g) _ _ (hg rfl)]

/-- The wait slot and the journal of the engine after a status decision. -/
theorem complete_engine (c : CmdSpec) (p : Packet) (slot status k : Nat) (rs : List Nat) (close : Bool) (s : State) :
    (s.complete c p slot status rs k close).engine.waiting = s.engine.waiting ∧
    (s.complete c p slot status rs k close).engine.behind = s.engine.behind ∧
    (s.complete c p slot status rs k close).engine.handoffs = s.engine.handoffs ∧
    (s.complete c p slot status rs k close).engine.commit = s.engine.commit ∧
    (s.complete c p slot status rs k close).engine.patch = s.engine.patch ∧
    (s.complete c p slot status rs k close).engine.journal =
      if c.journal then Sparse.ins s.engine.journal (s.rd F.CE_JLOG.NEXT)
        ([pack [(c.opcode, 10), (status, 4), (if p.src = .stream then 1 else 0, 2)],
          pack [(p.seq.toNat, 6), ((Operand.args p).length, 0)]] ++ words 2 s.tickNo ++ words 2 s.now ++
          [(Operand.args p).headD 0, ((Operand.args p).drop 1).headD 0])
      else s.engine.journal := by
  let g (t : State) := (t.engine.waiting, t.engine.behind, t.engine.handoffs, t.engine.commit, t.engine.patch,
    t.engine.journal)
  have hm : ∀ i k (t : State), g (t.stepEntry i k) = g t := fun i k t => by
    simp only [g, stepEntry]; rw [engine_ledgerOnly (modEntry_only _ _ _)]
  have hc : ∀ i v (t : State), g (t.closeEntry i v) = g t := fun i v t => by simp only [g]; rw [engine_ledgerOnly (closeEntry_only _ _ _)]
  have hr : ∀ a b d e (t : State), g (t.reply a b d e) = g t := fun a b d e t => by simp [g, reply]
  have hs : g (s.complete c p slot status rs k close) = g (onlyIf c.journal (·.journal c.opcode status
      (if p.src = .stream then 1 else 0) p.seq.toNat (Operand.args p).length ((Operand.args p).headD 0)
      (((Operand.args p).drop 1).headD 0)) s) := by
    simp only [complete]
    rw [onlyIf_same (g := g) close _ (hc _ _ _), onlyIf_same (g := g) (decide (0 < k)) _ (hm _ _ _),
      onlyIf_same (g := g) _ _ (hr _ _ _ _ _), endStream, onlyIf_same (g := g) (p.src == .stream) _ rfl]
    simp only [g, engine_countStatus]
  have hj : g (onlyIf c.journal (·.journal c.opcode status
      (if p.src = .stream then 1 else 0) p.seq.toNat (Operand.args p).length ((Operand.args p).headD 0)
      (((Operand.args p).drop 1).headD 0)) s) = (s.engine.waiting, s.engine.behind, s.engine.handoffs, s.engine.commit,
      s.engine.patch,
      if c.journal then Sparse.ins s.engine.journal (s.rd F.CE_JLOG.NEXT)
        ([pack [(c.opcode, 10), (status, 4), (if p.src = .stream then 1 else 0, 2)],
          pack [(p.seq.toNat, 6), ((Operand.args p).length, 0)]] ++ words 2 s.tickNo ++ words 2 s.now ++
          [(Operand.args p).headD 0, ((Operand.args p).drop 1).headD 0])
      else s.engine.journal) := by
    cases c.journal <;> rfl
  have := hs.trans hj
  simp only [g, Prod.mk.injEq] at this
  exact this

/-- The reply to a command that has ended with a status, out of a state that its effect has left (`replied` of the
claims). -/
theorem replied_complete {c : CmdSpec} {p : Packet} {s t : State} (slot status k : Nat) (rs : List Nat) (close : Bool)
    (hq : (t.queue qReply).vis = (s.queue qReply).vis) (hw : t.engine.waiting = none) (hb : t.engine.behind = [])
    (hj : t.rd F.CE_JLOG.NEXT = s.rd F.CE_JLOG.NEXT) (hn : t.tickNo = s.tickNo) (ht : t.now = s.now) :
    s.replied c p status rs (engineIdle (t.complete c p slot status rs k close)) := by
  have he := complete_engine c p slot status k rs close t
  refine ⟨?_, ?_, ?_, ?_, ?_, ?_⟩
  · rw [← hq, ← complete_reply]; rfl
  · show (t.complete c p slot status rs k close).engine.waiting = none
    rw [he.1, hw]
  · show (t.complete c p slot status rs k close).engine.behind = []
    rw [he.2.1, hb]
  · simp only [engineIdle]
    rw [rd_wr_ne _ _ (by decide)]
    simp
  · simp [engineIdle]
  · intro hc
    show Sparse.find (t.complete c p slot status rs k close).engine.journal _ = _
    rw [he.2.2.2.2.2, hc, if_pos rfl, hj, hn, ht, Sparse.find_ins_self]
    simp [Operand.args]

end State
end Sys2Proof.Machine
end

