-- ==== Sys2Proof/Laws/Rams.lean ====
section
/-! SUPPORT. The functions that leave every RAM alone, one lemma each: the RAMs after it are those before. -/

namespace Sys2Proof.Machine
namespace State

/-! ### Machine/Engine.lean -/

@[simp] theorem rams_journal (op status src seq len a0 a1 : Nat) (s : State) : (State.journal op status src seq len
    a0 a1 s).rams = s.rams := by
  simp only [State.journal]
  simp

@[simp] theorem rams_reply (op status seq : Nat) (results : List Nat) (s : State) : (State.reply op status seq
    results s).rams = s.rams := by
  simp only [State.reply]
  simp

@[simp] theorem rams_countStatus (status : Nat) (s : State) : (State.countStatus status s).rams = s.rams := by
  simp only [State.countStatus]
  repeat' split
  all_goals simp

@[simp] theorem rams_sendEntry (e : LedgerEntry) (s : State) : (State.sendEntry e s).rams = s.rams := by
  simp only [State.sendEntry]
  repeat' split
  all_goals simp

@[simp] theorem rams_setLedger (f : Sparse LedgerEntry → Sparse LedgerEntry) (s : State) : (State.setLedger f
    s).rams = s.rams := by
  simp only [State.setLedger]
  simp

@[simp] theorem rams_modEntry (slot : Nat) (f : LedgerEntry → LedgerEntry) (s : State) : (State.modEntry slot f
    s).rams = s.rams := by
  simp only [State.modEntry]
  repeat' split
  all_goals simp

@[simp] theorem rams_closeEntry (slot status : Nat) (s : State) : (State.closeEntry slot status s).rams = s.rams :=
    by
  simp only [State.closeEntry]
  repeat' split
  all_goals simp

@[simp] theorem rams_stepEntry (slot k : Nat) (s : State) : (State.stepEntry slot k s).rams = s.rams := by
  simp only [State.stepEntry]
  simp

@[simp] theorem rams_replyRewound (s : State) : (State.replyRewound s).rams = s.rams := by
  simp only [State.replyRewound]
  repeat' split
  all_goals simp

@[simp] theorem rams_carryResult (op seq : Nat) (src : Source) (status : Nat) (results : List Nat) (s : State) :
    (State.carryResult op seq src status results s).rams = s.rams := by
  simp only [State.carryResult]
  simp

@[simp] theorem rams_endStream (seq : Nat) (src : Source) (status : Nat) (s : State) : (State.endStream seq src
    status s).rams = s.rams := by
  simp only [State.endStream]
  simp

@[simp] theorem rams_replyHandoff (s : State) : (State.replyHandoff s).rams = s.rams := by
  simp only [State.replyHandoff]
  repeat' split
  all_goals simp

@[simp] theorem rams_replyOwed (s : State) : (State.replyOwed s).rams = s.rams := by
  simp only [State.replyOwed]
  simp

@[simp] theorem rams_endHandoff (op tag status : Nat) (results : List Nat) (s : State) : (State.endHandoff op tag
    status results s).rams = s.rams := by
  simp only [State.endHandoff]
  repeat' split
  all_goals simp

@[simp] theorem rams_stepHandoff (op tag k : Nat) (s : State) : (State.stepHandoff op tag k s).rams = s.rams := by
  simp only [State.stepHandoff]
  repeat' split
  all_goals simp

@[simp] theorem rams_complete (c : CmdSpec) (p : Packet) (slot status : Nat) (results : List Nat) (k : Nat) (close
    : Bool) (s : State) : (State.complete c p slot status results k close s).rams = s.rams := by
  simp only [State.complete]
  repeat' split
  all_goals simp

@[simp] theorem rams_carry (c : CmdSpec) (p : Packet) (slot tick : Nat) (s : State) : (State.carry c p slot tick
    s).rams = s.rams := by
  simp only [State.carry]
  simp

/-! ### Machine/Buffers.lean -/

@[simp] theorem rams_bufferEvent (n d code cause : Nat) (rest : List Nat) (s : State) : (State.bufferEvent n d code
    cause rest s).rams = s.rams := by
  simp only [State.bufferEvent]
  simp

@[simp] theorem rams_release (n d : Nat) (s : State) : (State.release n d s).rams = s.rams := by
  simp only [State.release]
  repeat' split
  all_goals simp

@[simp] theorem rams_hostRelease (n d : Nat) (s : State) : (State.hostRelease n d s).rams = s.rams := by
  simp only [State.hostRelease]
  simp

@[simp] theorem rams_unpend (n d : Nat) (s : State) : (State.unpend n d s).rams = s.rams := by
  simp only [State.unpend]
  simp

@[simp] theorem rams_releaseAtEmit (n d : Nat) (s : State) : (State.releaseAtEmit n d s).rams = s.rams := by
  simp only [State.releaseAtEmit]
  repeat' split
  all_goals simp

@[simp] theorem rams_dropEmit (n d : Nat) (skip : Bool) (s : State) : (State.dropEmit n d skip s).rams = s.rams :=
    by
  simp only [State.dropEmit]
  repeat' split
  all_goals simp

@[simp] theorem rams_releaseAfterEmit (n : Nat) (s : State) : (State.releaseAfterEmit n s).rams = s.rams := by
  simp only [State.releaseAfterEmit]
  simp

@[simp] theorem rams_queueRewrite (n i : Nat) (filter : Bool) (old : Sparse Nat) (s : State) : (State.queueRewrite
    n i filter old s).rams = s.rams := by
  simp only [State.queueRewrite]
  repeat' split
  all_goals simp

/-! ### Machine/Cells.lean -/

@[simp] theorem rams_counted (c : Nat) (s : State) : (State.counted c s).rams = s.rams := by
  simp only [State.counted]
  repeat' split
  all_goals simp

@[simp] theorem rams_cellEvent (c code : Nat) (rest : List Nat) (s : State) : (State.cellEvent c code rest s).rams
    = s.rams := by
  simp only [State.cellEvent]
  simp

@[simp] theorem rams_clearAckrun (c : Nat) (s : State) : (State.clearAckrun c s).rams = s.rams := by
  simp only [State.clearAckrun]
  repeat' split
  all_goals simp

@[simp] theorem rams_beginCounting (c cause : Nat) (s : State) : (State.beginCounting c cause s).rams = s.rams := by
  simp only [State.beginCounting]
  simp

@[simp] theorem rams_endAttempt (c : Nat) (s : State) : (State.endAttempt c s).rams = s.rams := by
  simp only [State.endAttempt]
  simp

@[simp] theorem rams_busOff (c n ty fl : Nat) (s : State) : (State.busOff c n ty fl s).rams = s.rams := by
  simp only [State.busOff]
  repeat' split
  all_goals simp

@[simp] theorem rams_refreshConf (c : Nat) (s : State) : (State.refreshConf c s).rams = s.rams := by
  simp only [State.refreshConf]
  repeat' split
  all_goals simp

@[simp] theorem rams_addErrors (c n dT dR ty fl : Nat) (s : State) : (State.addErrors c n dT dR ty fl s).rams =
    s.rams := by
  simp only [State.addErrors]
  repeat' split
  all_goals simp

@[simp] theorem rams_sentOk (c n : Nat) (s : State) : (State.sentOk c n s).rams = s.rams := by
  simp only [State.sentOk]
  repeat' split
  all_goals simp

@[simp] theorem rams_receivedOk (c n : Nat) (s : State) : (State.receivedOk c n s).rams = s.rams := by
  simp only [State.receivedOk]
  repeat' split
  all_goals simp

@[simp] theorem rams_captureError (c ty : Nat) (tx : Bool) (dph : Bool) (pos field : Nat) (s : State) :
    (State.captureError c ty tx dph pos field s).rams = s.rams := by
  simp only [State.captureError]
  repeat' split
  all_goals simp

@[simp] theorem rams_startFlag (c : Nat) (tx overload : Bool) (s : State) : (State.startFlag c tx overload s).rams
    = s.rams := by
  simp only [State.startFlag]
  simp

@[simp] theorem rams_countAck (c : Nat) (s : State) : (State.countAck c s).rams = s.rams := by
  simp only [State.countAck]
  repeat' split
  all_goals simp

@[simp] theorem rams_accept (c n id : Nat) (rec : List Word) (s : State) : (State.accept c n id rec s).rams =
    s.rams := by
  simp only [State.accept]
  repeat' split
  all_goals simp

@[simp] theorem rams_discardTq (n cause : Nat) (s : State) : (State.discardTq n cause s).rams = s.rams := by
  simp only [State.discardTq]
  simp

@[simp] theorem rams_dropPush (c : Nat) (s : State) : (State.dropPush c s).rams = s.rams := by
  simp only [State.dropPush]
  repeat' split
  all_goals simp

@[simp] theorem rams_resetCell (c : Nat) (s : State) : (State.resetCell c s).rams = s.rams := by
  simp only [State.resetCell]
  simp

@[simp] theorem rams_integrate (c : Nat) (s : State) : (State.integrate c s).rams = s.rams := by
  simp only [State.integrate]
  repeat' split
  all_goals simp

/-! ### Machine/Rate.lean -/

@[simp] theorem rams_rateEvent (c code : Nat) (rest : List Nat) (s : State) : (State.rateEvent c code rest s).rams
    = s.rams := by
  simp only [State.rateEvent]
  simp

@[simp] theorem rams_rateStart (c : Nat) (s : State) : (State.rateStart c s).rams = s.rams := by
  simp only [State.rateStart]
  simp

@[simp] theorem rams_ratePassEnd (c : Nat) (s : State) : (State.ratePassEnd c s).rams = s.rams := by
  simp only [State.ratePassEnd]
  repeat' split
  all_goals simp

@[simp] theorem rams_rateNext (c : Nat) (s : State) : (State.rateNext c s).rams = s.rams := by
  simp only [State.rateNext]
  repeat' split
  all_goals simp

@[simp] theorem rams_rateGood (c : Nat) (s : State) : (State.rateGood c s).rams = s.rams := by
  simp only [State.rateGood]
  repeat' split
  all_goals simp

@[simp] theorem rams_rateAbort (c : Nat) (s : State) : (State.rateAbort c s).rams = s.rams := by
  simp only [State.rateAbort]
  repeat' split
  all_goals simp

@[simp] theorem rams_rateEnd (c : Nat) (s : State) : (State.rateEnd c s).rams = s.rams := by
  simp only [State.rateEnd]
  repeat' split
  all_goals simp

@[simp] theorem rams_rateStop (c : Nat) (s : State) : (State.rateStop c s).rams = s.rams := by
  simp only [State.rateStop]
  simp

/-! ### Machine/Flags.lean -/

@[simp] theorem rams_pairEvent (code : Nat) (rest : List Nat) (s : State) : (State.pairEvent code rest s).rams =
    s.rams := by
  simp only [State.pairEvent]
  simp

@[simp] theorem rams_sendHealth (ports : List Nat) (close : Bool) (s : State) : (State.sendHealth ports close
    s).rams = s.rams := by
  simp only [State.sendHealth]
  simp

@[simp] theorem rams_setCauses (l : List Nat) (s : State) : (State.setCauses l s).rams = s.rams := by
  simp only [State.setCauses]
  repeat' split
  all_goals simp

@[simp] theorem rams_setCause (c : Nat) (s : State) : (State.setCause c s).rams = s.rams := by
  simp only [State.setCause]
  repeat' split
  all_goals simp

@[simp] theorem rams_endCauses (l : List Nat) (s : State) : (State.endCauses l s).rams = s.rams := by
  simp only [State.endCauses]
  repeat' split
  all_goals simp

@[simp] theorem rams_endResync (s : State) : (State.endResync s).rams = s.rams := by
  simp only [State.endResync]
  simp

@[simp] theorem rams_compareDigest (own : Nat) (ownVoid : Bool) (digest : Nat) (void : Bool) (s : State) :
    (State.compareDigest own ownVoid digest void s).rams = s.rams := by
  simp only [State.compareDigest]
  repeat' split
  all_goals simp

@[simp] theorem rams_raiseChip (s : State) : (State.raiseChip s).rams = s.rams := by
  simp only [State.raiseChip]
  simp

@[simp] theorem rams_raisePwr (s : State) : (State.raisePwr s).rams = s.rams := by
  simp only [State.raisePwr]
  simp

@[simp] theorem rams_wearEvent (code kind unit cause detail : Nat) (rest : List Nat) (s : State) : (State.wearEvent
    code kind unit cause detail rest s).rams = s.rams := by
  simp only [State.wearEvent]
  simp

@[simp] theorem rams_enterLedger (kind unit cause row detail : Nat) (s : State) : (State.enterLedger kind unit
    cause row detail s).rams = s.rams := by
  simp only [State.enterLedger]
  repeat' split
  all_goals simp

@[simp] theorem rams_refreshNolane (s : State) : (State.refreshNolane s).rams = s.rams := by
  simp only [State.refreshNolane]
  simp

@[simp] theorem rams_failEngine (e cause : Nat) (s : State) : (State.failEngine e cause s).rams = s.rams := by
  simp only [State.failEngine]
  repeat' split
  all_goals simp

@[simp] theorem rams_assignSpare (s : State) : (State.assignSpare s).rams = s.rams := by
  simp only [State.assignSpare]
  repeat' split
  all_goals simp

/-! ### Machine/Gateway.lean -/

@[simp] theorem rams_refreshMapstat (s : State) : (State.refreshMapstat s).rams = s.rams := by
  simp only [State.refreshMapstat]
  simp

@[simp] theorem rams_modLane (l : Nat) (f : Lane → Lane) (s : State) : (State.modLane l f s).rams = s.rams := by
  simp only [State.modLane]
  simp

@[simp] theorem rams_startMap (t : Nat) (s : State) : (State.startMap t s).rams = s.rams := by
  simp only [State.startMap]
  repeat' split
  all_goals simp

@[simp] theorem rams_markEmit (i : Nat) (s : State) : (State.markEmit i s).rams = s.rams := by
  simp only [State.markEmit]
  simp

@[simp] theorem rams_executeKnot (l n k t : Nat) (s : State) : (State.executeKnot l n k t s).rams = s.rams := by
  simp only [State.executeKnot]
  repeat' split
  all_goals simp

@[simp] theorem rams_followList (l n k left t : Nat) (s : State) : (State.followList l n k left t s).rams = s.rams
    := by
  simp only [State.followList]
  repeat' split
  all_goals simp

@[simp] theorem rams_closeDigest (void : Bool) (s : State) : (State.closeDigest void s).rams = s.rams := by
  simp only [State.closeDigest]
  repeat' split
  all_goals simp

@[simp] theorem rams_endShadow (s : State) : (State.endShadow s).rams = s.rams := by
  simp only [State.endShadow]
  repeat' split
  all_goals simp

@[simp] theorem rams_enterList (late : Bool) (i : Nat) (d : Dword) (s : State) : (State.enterList late i d s).rams
    = s.rams := by
  simp only [State.enterList]
  repeat' split
  all_goals simp

@[simp] theorem rams_hostWriteList (i : Nat) (d : Dword) (s : State) : (State.hostWriteList i d s).rams = s.rams :=
    by
  simp only [State.hostWriteList]
  simp

@[simp] theorem rams_applyFrom (k : Nat) (s : State) : (State.applyFrom k s).rams = s.rams := by
  simp only [State.applyFrom]
  simp

/-! ### Machine/Profile.lean -/

@[simp] theorem rams_refreshPfstat (s : State) : (State.refreshPfstat s).rams = s.rams := by
  simp only [State.refreshPfstat]
  simp

@[simp] theorem rams_profEvent (n code : Nat) (rest : List Nat) (s : State) : (State.profEvent n code rest s).rams
    = s.rams := by
  simp only [State.profEvent]
  simp

@[simp] theorem rams_profPacket (n tag : Nat) (body : List Nat) (s : State) : (State.profPacket n tag body s).rams
    = s.rams := by
  simp only [State.profPacket]
  repeat' split
  all_goals simp

@[simp] theorem rams_judge (n c : Nat) (present absent : List Nat) (s : State) (counts : Bool) : (State.judge n c
    present absent s counts).rams = s.rams := by
  simp only [State.judge]
  simp

@[simp] theorem rams_judgeNode (n c : Nat) (present : Bool) (s : State) : (State.judgeNode n c present s).rams =
    s.rams := by
  simp only [State.judgeNode]
  repeat' split
  all_goals simp

@[simp] theorem rams_judgeMask (n c mask : Nat) (s : State) : (State.judgeMask n c mask s).rams = s.rams := by
  simp only [State.judgeMask]
  simp

@[simp] theorem rams_judgeReport (n : Nat) (w : Nat → Nat) (s : State) : (State.judgeReport n w s).rams = s.rams :=
    by
  simp only [State.judgeReport]
  repeat' split
  all_goals simp

@[simp] theorem rams_judgeRefused (n : Nat) (wellFormed : Bool) (s : State) : (State.judgeRefused n wellFormed
    s).rams = s.rams := by
  simp only [State.judgeRefused]
  simp

@[simp] theorem rams_holdReport (n : Nat) (vals : List (Nat × Nat)) (s : State) : (State.holdReport n vals s).rams
    = s.rams := by
  simp only [State.holdReport]
  simp

@[simp] theorem rams_readback (n : Nat) (stamp : Nat) (vals : List (Nat × Nat)) (s : State) : (State.readback n
    stamp vals s).rams = s.rams := by
  simp only [State.readback]
  simp

@[simp] theorem rams_convertEdges (n : Nat) (stamp : Nat) (w : Nat → Nat) (s : State) : (State.convertEdges n stamp
    w s).rams = s.rams := by
  simp only [State.convertEdges]
  repeat' split
  all_goals simp

@[simp] theorem rams_composeArea (n : Nat) (s : State) : (State.composeArea n s).rams = s.rams := by
  simp only [State.composeArea]
  repeat' split
  all_goals simp

@[simp] theorem rams_bindBoundary (n : Nat) (stored : Bool) (s : State) : (State.bindBoundary n stored s).rams =
    s.rams := by
  simp only [State.bindBoundary]
  repeat' split
  all_goals simp

@[simp] theorem rams_snapshotActions (s : State) : (State.snapshotActions s).rams = s.rams := by
  simp only [State.snapshotActions]
  simp

@[simp] theorem rams_evaluate (n : Nat) (s : State) : (State.evaluate n s).rams = s.rams := by
  simp only [State.evaluate]
  repeat' split
  all_goals simp

@[simp] theorem rams_profileStored (n d : Nat) (s : State) : (State.profileStored n d s).rams = s.rams := by
  simp only [State.profileStored]
  simp

@[simp] theorem rams_hartFail (n chan htag cause : Nat) (s : State) : (State.hartFail n chan htag cause s).rams =
    s.rams := by
  simp only [State.hartFail]
  simp

@[simp] theorem rams_hartEnd (n cause : Nat) (s : State) : (State.hartEnd n cause s).rams = s.rams := by
  simp only [State.hartEnd]
  repeat' split
  all_goals simp

@[simp] theorem rams_hartRead (n : Nat) (s : State) : (State.hartRead n s).rams = s.rams := by
  simp only [State.hartRead]
  repeat' split
  all_goals simp

@[simp] theorem rams_hartExpire (n : Nat) (s : State) : (State.hartExpire n s).rams = s.rams := by
  simp only [State.hartExpire]
  simp

@[simp] theorem rams_clearBind (n : Nat) (s : State) : (State.clearBind n s).rams = s.rams := by
  simp only [State.clearBind]
  repeat' split
  all_goals simp

/-! ### Machine/Events.lean -/

@[simp] theorem rams_pushLost (s : State) : (State.pushLost s).rams = s.rams := by
  simp only [State.pushLost]
  repeat' split
  all_goals simp

@[simp] theorem rams_pushRecord (s : State) : (State.pushRecord s).rams = s.rams := by
  simp only [State.pushRecord]
  repeat' split
  all_goals simp

@[simp] theorem rams_flushEvents (s : State) : (State.flushEvents s).rams = s.rams := by
  simp only [State.flushEvents]
  simp

/-! ### Machine/Tick.lean -/

@[simp] theorem rams_noteCrossing (s : State) : (State.noteCrossing s).rams = s.rams := by
  simp only [State.noteCrossing]
  repeat' split
  all_goals simp

@[simp] theorem rams_passClk (s : State) : (State.passClk s).rams = s.rams := by
  simp only [State.passClk]
  repeat' split
  all_goals simp

@[simp] theorem rams_missEvent (code level ph reaction unit tick items : Nat) (s : State) : (State.missEvent code
    level ph reaction unit tick items s).rams = s.rams := by
  simp only [State.missEvent]
  repeat' split
  all_goals simp

@[simp] theorem rams_enterMap (t : Nat) (s : State) : (State.enterMap t s).rams = s.rams := by
  simp only [State.enterMap]
  simp

@[simp] theorem rams_enterEmit (s : State) : (State.enterEmit s).rams = s.rams := by
  simp only [State.enterEmit]
  simp

@[simp] theorem rams_endMap (void : Bool) (s : State) : (State.endMap void s).rams = s.rams := by
  simp only [State.endMap]
  simp

@[simp] theorem rams_endCapture (s : State) : (State.endCapture s).rams = s.rams := by
  simp only [State.endCapture]
  repeat' split
  all_goals simp

@[simp] theorem rams_closeTick (s : State) : (State.closeTick s).rams = s.rams := by
  simp only [State.closeTick]
  simp

@[simp] theorem rams_tickClose (s : State) : (State.tickClose s).rams = s.rams := by
  simp only [State.tickClose]
  repeat' split
  all_goals simp

@[simp] theorem rams_endEmit (s : State) : (State.endEmit s).rams = s.rams := by
  simp only [State.endEmit]
  simp

@[simp] theorem rams_holdOn (l : List Nat) (s : State) : (State.holdOn l s).rams = s.rams := by
  simp only [State.holdOn]
  simp

@[simp] theorem rams_setTick (st : Nat) (s : State) : (State.setTick st s).rams = s.rams := by
  simp only [State.setTick]
  simp

@[simp] theorem rams_tickEvent (code : Nat) (s : State) : (State.tickEvent code s).rams = s.rams := by
  simp only [State.tickEvent]
  simp

@[simp] theorem rams_returnToSource (s : State) : (State.returnToSource s).rams = s.rams := by
  simp only [State.returnToSource]
  repeat' split
  all_goals simp

@[simp] theorem rams_stepTime (e : Int) (num : Nat) (dest : Int) (s : State) : (State.stepTime e num dest s).rams =
    s.rams := by
  simp only [State.stepTime]
  repeat' split
  all_goals simp

@[simp] theorem rams_drawRate (s : State) : (State.drawRate s).rams = s.rams := by
  simp only [State.drawRate]
  simp

@[simp] theorem rams_reference (e : Int) (num period : Nat) (base : Int) (beacon : Bool) (s : State) :
    (State.reference e num period base beacon s).rams = s.rams := by
  simp only [State.reference]
  simp

/-! ### Machine/Spares.lean -/

@[simp] theorem rams_refreshUnserved (s : State) : (State.refreshUnserved s).rams = s.rams := by
  simp only [State.refreshUnserved]
  simp

@[simp] theorem rams_markUnserved (n c cause : Nat) (s : State) : (State.markUnserved n c cause s).rams = s.rams :=
    by
  simp only [State.markUnserved]
  simp

@[simp] theorem rams_stopRotation (b : Nat) (s : State) : (State.stopRotation b s).rams = s.rams := by
  simp only [State.stopRotation]
  repeat' split
  all_goals simp

@[simp] theorem rams_beginTakeover (n c : Nat) (hard bad : Bool) (s : State) : (State.beginTakeover n c hard bad
    s).rams = s.rams := by
  simp only [State.beginTakeover]
  repeat' split
  all_goals simp

@[simp] theorem rams_hardenTakeover (n c : Nat) (s : State) : (State.hardenTakeover n c s).rams = s.rams := by
  simp only [State.hardenTakeover]
  repeat' split
  all_goals simp

@[simp] theorem rams_retryTakeover (n : Nat) (s : State) : (State.retryTakeover n s).rams = s.rams := by
  simp only [State.retryTakeover]
  repeat' split
  all_goals simp

@[simp] theorem rams_switchToMirror (n : Nat) (s : State) : (State.switchToMirror n s).rams = s.rams := by
  simp only [State.switchToMirror]
  repeat' split
  all_goals simp

@[simp] theorem rams_switchBack (n slot : Nat) (s : State) : (State.switchBack n slot s).rams = s.rams := by
  simp only [State.switchBack]
  simp

@[simp] theorem rams_switchRoute (n : Nat) (s : State) : (State.switchRoute n s).rams = s.rams := by
  simp only [State.switchRoute]
  repeat' split
  all_goals simp

@[simp] theorem rams_mirrorOutcome (b k ty : Nat) (f : BusFrame) (stamp : Nat) (s : State) : (State.mirrorOutcome b
    k ty f stamp s).rams = s.rams := by
  simp only [State.mirrorOutcome]
  repeat' split
  all_goals simp

@[simp] theorem rams_comparePair (b k : Nat) (m r : BusFrame × Nat × Nat) (s : State) : (State.comparePair b k m r
    s).rams = s.rams := by
  simp only [State.comparePair]
  repeat' split
  all_goals simp

@[simp] theorem rams_settleCheck (b k t : Nat) (s : State) : (State.settleCheck b k t s).rams = s.rams := by
  simp only [State.settleCheck]
  simp

@[simp] theorem rams_reportFrame (n : Nat) (f : BusFrame) (stamp : Nat) (s : State) : (State.reportFrame n f stamp
    s).rams = s.rams := by
  simp only [State.reportFrame]
  repeat' split
  all_goals simp

@[simp] theorem rams_hearFrame (n : Nat) (f : BusFrame) (stamp : Nat) (s : State) : (State.hearFrame n f stamp
    s).rams = s.rams := by
  simp only [State.hearFrame]
  repeat' split
  all_goals simp

@[simp] theorem rams_settlePort (n : Nat) (s : State) : (State.settlePort n s).rams = s.rams := by
  simp only [State.settlePort]
  repeat' split
  all_goals simp

@[simp] theorem rams_moveMirror (n : Nat) (s : State) : (State.moveMirror n s).rams = s.rams := by
  simp only [State.moveMirror]
  repeat' split
  all_goals simp

@[simp] theorem rams_moveRotation (b : Nat) (s : State) : (State.moveRotation b s).rams = s.rams := by
  simp only [State.moveRotation]
  repeat' split
  all_goals simp

@[simp] theorem rams_moveLane (l : Nat) (s : State) : (State.moveLane l s).rams = s.rams := by
  simp only [State.moveLane]
  repeat' split
  all_goals simp

@[simp] theorem rams_failLane (l cause : Nat) (s : State) : (State.failLane l cause s).rams = s.rams := by
  simp only [State.failLane]
  repeat' split
  all_goals simp

@[simp] theorem rams_useSpare (r : RamId) (row sp : Nat) (s : State) : (State.useSpare r row sp s).rams = s.rams :=
    by
  simp only [State.useSpare]
  simp

@[simp] theorem rams_retireRow (r : RamId) (row : Nat) (s : State) : (State.retireRow r row s).rams = s.rams := by
  simp only [State.retireRow]
  repeat' split
  all_goals simp

@[simp] theorem rams_correctedWord (r : RamId) (addr : Nat) (s : State) : (State.correctedWord r addr s).rams =
    s.rams := by
  simp only [State.correctedWord]
  repeat' split
  all_goals simp

@[simp] theorem rams_spoilQueue (q key : Nat) (s : State) : (State.spoilQueue q key s).rams = s.rams := by
  simp only [State.spoilQueue]
  simp

@[simp] theorem rams_uncorrectableWord (r : RamId) (addr : Nat) (s : State) : (State.uncorrectableWord r addr
    s).rams = s.rams := by
  simp only [State.uncorrectableWord]
  repeat' split
  all_goals simp

@[simp] theorem rams_endPass (s : State) : (State.endPass s).rams = s.rams := by
  simp only [State.endPass]
  repeat' split
  all_goals simp

@[simp] theorem rams_mapRow (r : RamId) (row : Nat) (s : State) : (State.mapRow r row s).rams = s.rams := by
  simp only [State.mapRow]
  repeat' split
  all_goals simp

/-! ### Machine/Sleep.lean -/

@[simp] theorem rams_sleepEvent (n group code : Nat) (rest : List Nat) (s : State) : (State.sleepEvent n group code
    rest s).rams = s.rams := by
  simp only [State.sleepEvent]
  simp

@[simp] theorem rams_keepAwake (n group cause origin src time tick : Nat) (s : State) : (State.keepAwake n group
    cause origin src time tick s).rams = s.rams := by
  simp only [State.keepAwake]
  simp

@[simp] theorem rams_logWake (n group src orig filt origin prev tick t : Nat) (s : State) : (State.logWake n group
    src orig filt origin prev tick t s).rams = s.rams := by
  simp only [State.logWake]
  simp

@[simp] theorem rams_relogWake (n src orig filt origin tick : Nat) (w : Waking) (s : State) : (State.relogWake n
    src orig filt origin tick w s).rams = s.rams := by
  simp only [State.relogWake]
  simp

@[simp] theorem rams_sendNet (n : Nat) (payload : List Nat) (s : State) : (State.sendNet n payload s).rams = s.rams
    := by
  simp only [State.sendNet]
  repeat' split
  all_goals simp

@[simp] theorem rams_nextNet (n : Nat) (s : State) : (State.nextNet n s).rams = s.rams := by
  simp only [State.nextNet]
  simp

@[simp] theorem rams_forgetNet (n : Nat) (s : State) : (State.forgetNet n s).rams = s.rams := by
  simp only [State.forgetNet]
  simp

@[simp] theorem rams_dropRoundFrames (n : Nat) (s : State) : (State.dropRoundFrames n s).rams = s.rams := by
  simp only [State.dropRoundFrames]
  repeat' split
  all_goals simp

@[simp] theorem rams_sendWakeFrame (n group src : Nat) (s : State) : (State.sendWakeFrame n group src s).rams =
    s.rams := by
  simp only [State.sendWakeFrame]
  simp

@[simp] theorem rams_driveWake (n k : Nat) (s : State) : (State.driveWake n k s).rams = s.rams := by
  simp only [State.driveWake]
  simp

@[simp] theorem rams_setPortState (n st : Nat) (s : State) : (State.setPortState n st s).rams = s.rams := by
  simp only [State.setPortState]
  simp

@[simp] theorem rams_closeBusy (n : Nat) (s : State) : (State.closeBusy n s).rams = s.rams := by
  simp only [State.closeBusy]
  simp

@[simp] theorem rams_wakeActs (n src k : Nat) (s : State) : (State.wakeActs n src k s).rams = s.rams := by
  simp only [State.wakeActs]
  repeat' split
  all_goals simp

@[simp] theorem rams_endListening (n : Nat) (s : State) : (State.endListening n s).rams = s.rams := by
  simp only [State.endListening]
  repeat' split
  all_goals simp

@[simp] theorem rams_wakePort (n src orig filt origin target tick k t : Nat) (s : State) : (State.wakePort n src
    orig filt origin target tick k t s).rams = s.rams := by
  simp only [State.wakePort]
  repeat' split
  all_goals simp

@[simp] theorem rams_closeRound (n : Nat) (s : State) : (State.closeRound n s).rams = s.rams := by
  simp only [State.closeRound]
  simp

@[simp] theorem rams_holdWake (n group : Nat) (h : HeldWake) (s : State) : (State.holdWake n group h s).rams =
    s.rams := by
  simp only [State.holdWake]
  simp

@[simp] theorem rams_enterSleep (n st : Nat) (s : State) : (State.enterSleep n st s).rams = s.rams := by
  simp only [State.enterSleep]
  repeat' split
  all_goals simp

@[simp] theorem rams_changePower (n : Nat) (s : State) : (State.changePower n s).rams = s.rams := by
  simp only [State.changePower]
  repeat' split
  all_goals simp

@[simp] theorem rams_ownKeep (n : Nat) (s : State) : (State.ownKeep n s).rams = s.rams := by
  simp only [State.ownKeep]
  simp

@[simp] theorem rams_abortRound (n cause origin src : Nat) (s : State) (filt : Nat) : (State.abortRound n cause
    origin src s filt).rams = s.rams := by
  simp only [State.abortRound]
  repeat' split
  all_goals simp

@[simp] theorem rams_undoAbort (n : Nat) (a : Aborted) (s : State) : (State.undoAbort n a s).rams = s.rams := by
  simp only [State.undoAbort]
  simp

@[simp] theorem rams_wakeRound (n src filt origin : Nat) (s : State) : (State.wakeRound n src filt origin s).rams =
    s.rams := by
  simp only [State.wakeRound]
  repeat' split
  all_goals simp

@[simp] theorem rams_arouse (n src filt origin target tick : Nat) (s : State) : (State.arouse n src filt origin
    target tick s).rams = s.rams := by
  simp only [State.arouse]
  repeat' split
  all_goals simp

@[simp] theorem rams_wakeSource (n src filt origin : Nat) (s : State) : (State.wakeSource n src filt origin s).rams
    = s.rams := by
  simp only [State.wakeSource]
  repeat' split
  all_goals simp

@[simp] theorem rams_openRound (n group round coord : Nat) (mine : Bool) (window : Option Nat) (s : State) :
    (State.openRound n group round coord mine window s).rams = s.rams := by
  simp only [State.openRound]
  simp

@[simp] theorem rams_startRound (n group : Nat) (s : State) : (State.startRound n group s).rams = s.rams := by
  simp only [State.startRound]
  simp

@[simp] theorem rams_closeWindow (n : Nat) (s : State) : (State.closeWindow n s).rams = s.rams := by
  simp only [State.closeWindow]
  repeat' split
  all_goals simp

@[simp] theorem rams_commitRound (n sdly : Nat) (s : State) : (State.commitRound n sdly s).rams = s.rams := by
  simp only [State.commitRound]
  simp

@[simp] theorem rams_clearGroup (n g src orig filt origin t : Nat) (s : State) : (State.clearGroup n g src orig
    filt origin t s).rams = s.rams := by
  simp only [State.clearGroup]
  repeat' split
  all_goals simp

@[simp] theorem rams_wakeGroup (n g src filt origin : Nat) (s : State) : (State.wakeGroup n g src filt origin
    s).rams = s.rams := by
  simp only [State.wakeGroup]
  repeat' split
  all_goals simp

@[simp] theorem rams_rewakePort (n : Nat) (s : State) : (State.rewakePort n s).rams = s.rams := by
  simp only [State.rewakePort]
  repeat' split
  all_goals simp

@[simp] theorem rams_rewakes (s : State) : (State.rewakes s).rams = s.rams := by
  simp only [State.rewakes]
  simp

@[simp] theorem rams_roundEntry (n : Nat) (s : State) : (State.roundEntry n s).rams = s.rams := by
  simp only [State.roundEntry]
  repeat' split
  all_goals simp

@[simp] theorem rams_stray (n : Nat) (s : State) : (State.stray n s).rams = s.rams := by
  simp only [State.stray]
  simp

@[simp] theorem rams_propose (n org w0 : Nat) (s : State) : (State.propose n org w0 s).rams = s.rams := by
  simp only [State.propose]
  repeat' split
  all_goals simp

@[simp] theorem rams_vote (n org w0 stamp : Nat) (s : State) : (State.vote n org w0 stamp s).rams = s.rams := by
  simp only [State.vote]
  repeat' split
  all_goals simp

@[simp] theorem rams_commitFrame (n org w0 w1 : Nat) (s : State) : (State.commitFrame n org w0 w1 s).rams = s.rams
    := by
  simp only [State.commitFrame]
  repeat' split
  all_goals simp

@[simp] theorem rams_wakeGroups (n org g : Nat) (s : State) : (State.wakeGroups n org g s).rams = s.rams := by
  simp only [State.wakeGroups]
  repeat' split
  all_goals simp

@[simp] theorem rams_wakeFrame (n org w0 : Nat) (s : State) : (State.wakeFrame n org w0 s).rams = s.rams := by
  simp only [State.wakeFrame]
  repeat' split
  all_goals simp

@[simp] theorem rams_networkFrame (n org : Nat) (p : List Nat) (stamp : Nat) (s : State) : (State.networkFrame n
    org p stamp s).rams = s.rams := by
  simp only [State.networkFrame]
  repeat' split
  all_goals simp

@[simp] theorem rams_memberTraffic (n org : Nat) (s : State) : (State.memberTraffic n org s).rams = s.rams := by
  simp only [State.memberTraffic]
  repeat' split
  all_goals simp

@[simp] theorem rams_networkSent (n sof : Nat) (f : NetFrame) (own : Bool) (s : State) : (State.networkSent n sof f
    own s).rams = s.rams := by
  simp only [State.networkSent]
  repeat' split
  all_goals simp

@[simp] theorem rams_roundBoundary (n : Nat) (s : State) : (State.roundBoundary n s).rams = s.rams := by
  simp only [State.roundBoundary]
  simp

@[simp] theorem rams_powerLive (n st tick : Nat) (s : State) : (State.powerLive n st tick s).rams = s.rams := by
  simp only [State.powerLive]
  repeat' split
  all_goals simp

@[simp] theorem rams_umbraDecode (n : Nat) (bits : List Bool) (s : State) : (State.umbraDecode n bits s).rams =
    s.rams := by
  simp only [State.umbraDecode]
  repeat' split
  all_goals simp

@[simp] theorem rams_emitWork (n : Nat) (s : State) : (State.emitWork n s).rams = s.rams := by
  simp only [State.emitWork]
  repeat' split
  all_goals simp

@[simp] theorem rams_writeHold (n : Nat) (hold : Bool) (s : State) : (State.writeHold n hold s).rams = s.rams := by
  simp only [State.writeHold]
  repeat' split
  all_goals simp

/-! ### Machine/Bridge.lean -/

@[simp] theorem rams_modTxns (f : Sparse Txn → Sparse Txn) (s : State) : (State.modTxns f s).rams = s.rams := by
  simp only [State.modTxns]
  simp

@[simp] theorem rams_modCmds (f : Sparse RemoteCmd → Sparse RemoteCmd) (s : State) : (State.modCmds f s).rams =
    s.rams := by
  simp only [State.modCmds]
  simp

@[simp] theorem rams_modInbound (f : Sparse Inbound → Sparse Inbound) (s : State) : (State.modInbound f s).rams =
    s.rams := by
  simp only [State.modInbound]
  simp

@[simp] theorem rams_bridgeEvent (code n w org : Nat) (rest : List Nat) (s : State) : (State.bridgeEvent code n w
    org rest s).rams = s.rams := by
  simp only [State.bridgeEvent]
  simp

@[simp] theorem rams_enqueueOut (n : Nat) (cmd : Bool) (pri : Nat) (payload : List Nat) (s : State) :
    (State.enqueueOut n cmd pri payload s).rams = s.rams := by
  simp only [State.enqueueOut]
  repeat' split
  all_goals simp

@[simp] theorem rams_openTxn (e : Nat) (kind : TxnKind) (w : Nat) (g : WinSet) (func ofs count seq : Nat) (arg :
    Nat) (data : List Nat) (s : State) (k : Nat) : (State.openTxn e kind w g func ofs count seq arg data s k).rams
    = s.rams := by
  simp only [State.openTxn]
  repeat' split
  all_goals simp

@[simp] theorem rams_prefetchFrame (w ofs left : Nat) (s : State) : (State.prefetchFrame w ofs left s).rams =
    s.rams := by
  simp only [State.prefetchFrame]
  repeat' split
  all_goals simp

@[simp] theorem rams_fill (w : Nat) (s : State) : (State.fill w s).rams = s.rams := by
  simp only [State.fill]
  repeat' split
  all_goals simp

@[simp] theorem rams_dropPrefetch (w : Nat) (s : State) : (State.dropPrefetch w s).rams = s.rams := by
  simp only [State.dropPrefetch]
  simp

@[simp] theorem rams_dropNode (n org : Nat) (s : State) : (State.dropNode n org s).rams = s.rams := by
  simp only [State.dropNode]
  simp

@[simp] theorem rams_spliceLive (w : Nat) (s : State) : (State.spliceLive w s).rams = s.rams := by
  simp only [State.spliceLive]
  simp

@[simp] theorem rams_misdeclare (w n org logged : Nat) (setFlag : Bool) (s : State) : (State.misdeclare w n org
    logged setFlag s).rams = s.rams := by
  simp only [State.misdeclare]
  simp

@[simp] theorem rams_logDiscarded (w n org addr v stamp : Nat) (s : State) : (State.logDiscarded w n org addr v
    stamp s).rams = s.rams := by
  simp only [State.logDiscarded]
  simp

@[simp] theorem rams_logLate (t : Txn) (tag func ecode stamp : Nat) (s : State) : (State.logLate t tag func ecode
    stamp s).rams = s.rams := by
  simp only [State.logLate]
  simp

@[simp] theorem rams_sendFrame (i : Nat) (s : State) : (State.sendFrame i s).rams = s.rams := by
  simp only [State.sendFrame]
  repeat' split
  all_goals simp

@[simp] theorem rams_endCommand (i status cause ecode : Nat) (extra : List Nat) (s : State) : (State.endCommand i
    status cause ecode extra s).rams = s.rams := by
  simp only [State.endCommand]
  repeat' split
  all_goals simp

@[simp] theorem rams_endLock (n org : Nat) (s : State) : (State.endLock n org s).rams = s.rams := by
  simp only [State.endLock]
  simp

@[simp] theorem rams_closeCommand (i : Nat) (t : Txn) (o : TxnEnd) (s : State) : (State.closeCommand i t o s).rams
    = s.rams := by
  simp only [State.closeCommand]
  repeat' split
  all_goals simp

@[simp] theorem rams_answer (n pri func org tag arg : Nat) (data : List Nat) (s : State) : (State.answer n pri func
    org tag arg data s).rams = s.rams := by
  simp only [State.answer]
  simp

@[simp] theorem rams_answerError (n pri func org tag arg ecode : Nat) (s : State) : (State.answerError n pri func
    org tag arg ecode s).rams = s.rams := by
  simp only [State.answerError]
  simp

@[simp] theorem rams_refuseRequest (n pri func org tag arg : Nat) (s : State) : (State.refuseRequest n pri func org
    tag arg s).rams = s.rams := by
  simp only [State.refuseRequest]
  simp

@[simp] theorem rams_hostAnswer (h : List Nat) (s : State) : (State.hostAnswer h s).rams = s.rams := by
  simp only [State.hostAnswer]
  repeat' split
  all_goals simp

/-! ### Machine/Live.lean -/

@[simp] theorem rams_recoveryLive (n : Nat) (s : State) : (State.recoveryLive n s).rams = s.rams := by
  simp only [State.recoveryLive]
  repeat' split
  all_goals simp

@[simp] theorem rams_sourceLive (before : State) (s : State) : (State.sourceLive before s).rams = s.rams := by
  simp only [State.sourceLive]
  repeat' split
  all_goals simp

@[simp] theorem rams_setRole (r : Nat) (s : State) : (State.setRole r s).rams = s.rams := by
  simp only [State.setRole]
  repeat' split
  all_goals simp

@[simp] theorem rams_pairLive (s : State) : (State.pairLive s).rams = s.rams := by
  simp only [State.pairLive]
  repeat' split
  all_goals simp

/-! ### Machine/Pair.lean -/

@[simp] theorem rams_yieldStream (has : Nat → Bool) (s : State) : (State.yieldStream has s).rams = s.rams := by
  simp only [State.yieldStream]
  repeat' split
  all_goals simp

@[simp] theorem rams_closeList (s : State) : (State.closeList s).rams = s.rams := by
  simp only [State.closeList]
  repeat' split
  all_goals simp

@[simp] theorem rams_beginResync (s : State) : (State.beginResync s).rams = s.rams := by
  simp only [State.beginResync]
  repeat' split
  all_goals simp

@[simp] theorem rams_reportLedger (r : LedgerReport) (s : State) : (State.reportLedger r s).rams = s.rams := by
  simp only [State.reportLedger]
  repeat' split
  all_goals simp

@[simp] theorem rams_requestResync (s : State) : (State.requestResync s).rams = s.rams := by
  simp only [State.requestResync]
  repeat' split
  all_goals simp

@[simp] theorem rams_countHealth (s : State) : (State.countHealth s).rams = s.rams := by
  simp only [State.countHealth]
  repeat' split
  all_goals simp

@[simp] theorem rams_sendConfiguration (s : State) : (State.sendConfiguration s).rams = s.rams := by
  simp only [State.sendConfiguration]
  simp

@[simp] theorem rams_relinkLane (l : Nat) (s : State) : (State.relinkLane l s).rams = s.rams := by
  simp only [State.relinkLane]
  repeat' split
  all_goals simp

/-! ### Machine/Pins.lean -/

@[simp] theorem rams_selectTap (i : TapInstr) (data : Nat) (s : State) : (State.selectTap i data s).rams = s.rams
    := by
  simp only [State.selectTap]
  simp

@[simp] theorem rams_scanPins (i : TapInstr) (s : State) : (State.scanPins i s).rams = s.rams := by
  simp only [State.scanPins]
  simp

/-! ### Machine/Power.lean -/

@[simp] theorem rams_spareFor (ram : RamId) (row : Nat) (s : State) : (State.spareFor ram row s).rams = s.rams := by
  simp only [State.spareFor]
  repeat' split
  all_goals simp

@[simp] theorem rams_failRow (ram : RamId) (row : Nat) (s : State) : (State.failRow ram row s).rams = s.rams := by
  simp only [State.failRow]
  repeat' split
  all_goals simp

@[simp] theorem rams_failRows (failing : List (RamId × Nat)) (s : State) : (State.failRows failing s).rams = s.rams
    := by
  simp only [State.failRows]
  simp

@[simp] theorem rams_applyUnits (s : State) : (State.applyUnits s).rams = s.rams := by
  simp only [State.applyUnits]
  simp

@[simp] theorem rams_readTemperature (i v : Nat) (s : State) : (State.readTemperature i v s).rams = s.rams := by
  simp only [State.readTemperature]
  simp

@[simp] theorem rams_readTemperatures (readings : List Nat) (s : State) : (State.readTemperatures readings s).rams
    = s.rams := by
  simp only [State.readTemperatures]
  simp

@[simp] theorem rams_readVoltages (vcore vsd vaux : Nat) (s : State) : (State.readVoltages vcore vsd vaux s).rams =
    s.rams := by
  simp only [State.readVoltages]
  simp

@[simp] theorem rams_sampleTemperature (readings : List Nat) (s : State) : (State.sampleTemperature readings
    s).rams = s.rams := by
  simp only [State.sampleTemperature]
  repeat' split
  all_goals simp

@[simp] theorem rams_sampleMonitor (i v lo hi : Nat) (s : State) : (State.sampleMonitor i v lo hi s).rams = s.rams
    := by
  simp only [State.sampleMonitor]
  repeat' split
  all_goals simp

@[simp] theorem rams_pushTelemetry (s : State) : (State.pushTelemetry s).rams = s.rams := by
  simp only [State.pushTelemetry]
  repeat' split
  all_goals simp

/-! ### Machine/HostPort.lean -/

@[simp] theorem rams_discard (cause a : Nat) (read : Bool) (s : State) : (State.discard cause a read s).rams =
    s.rams := by
  simp only [State.discard]
  repeat' split
  all_goals simp

@[simp] theorem rams_present (v words : Nat) (s : State) : (State.present v words s).rams = s.rams := by
  simp only [State.present]
  simp

@[simp] theorem rams_readBad (a words : Nat) (t : Target) (s : State) : (State.readBad a words t s).rams = s.rams
    := by
  simp only [State.readBad]
  repeat' split
  all_goals simp

@[simp] theorem rams_readClear (r : Reg) (s : State) : (State.readClear r s).rams = s.rams := by
  simp only [State.readClear]
  simp

@[simp] theorem rams_readStarting (a : Nat) (s : State) : (State.readStarting a s).rams = s.rams := by
  simp only [State.readStarting]
  repeat' split
  all_goals simp

@[simp] theorem rams_stageHost (f : Field) (v : Nat) (s : State) : (State.stageHost f v s).rams = s.rams := by
  simp only [State.stageHost]
  repeat' split
  all_goals simp

@[simp] theorem rams_writeField (f : Field) (v : Nat) (s : State) : (State.writeField f v s).rams = s.rams := by
  simp only [State.writeField]
  repeat' split
  all_goals simp

@[simp] theorem rams_releaseCell (c : Nat) (s : State) : (State.releaseCell c s).rams = s.rams := by
  simp only [State.releaseCell]
  repeat' split
  all_goals simp

@[simp] theorem rams_retryCell (c : Nat) (s : State) : (State.retryCell c s).rams = s.rams := by
  simp only [State.retryCell]
  repeat' split
  all_goals simp

@[simp] theorem rams_flushQueue (q : Nat) (s : State) : (State.flushQueue q s).rams = s.rams := by
  simp only [State.flushQueue]
  repeat' split
  all_goals simp

@[simp] theorem rams_reacquire (s : State) : (State.reacquire s).rams = s.rams := by
  simp only [State.reacquire]
  simp

@[simp] theorem rams_clearBit (f : Field) (s : State) : (State.clearBit f s).rams = s.rams := by
  simp only [State.clearBit]
  repeat' split
  all_goals simp

@[simp] theorem rams_pushData (q : Nat) (d : Nat) (s : State) : (State.pushData q d s).rams = s.rams := by
  simp only [State.pushData]
  repeat' split
  all_goals simp

@[simp] theorem rams_pushTwo (q : Nat) (d : Nat) (s : State) : (State.pushTwo q d s).rams = s.rams := by
  simp only [State.pushTwo]
  simp

/-! ### Machine/Bus.lean -/

@[simp] theorem rams_markBusy (n : Nat) (s : State) : (State.markBusy n s).rams = s.rams := by
  simp only [State.markBusy]
  simp

@[simp] theorem rams_measureDelay (c n : Nat) (f : TxFrame) (tdc : Option (BitVec 8)) (s : State) :
    (State.measureDelay c n f tdc s).rams = s.rams := by
  simp only [State.measureDelay]
  repeat' split
  all_goals simp

@[simp] theorem rams_startFrame (c n : Nat) (tdc : Option (BitVec 8)) (s : State) : (State.startFrame c n tdc
    s).rams = s.rams := by
  simp only [State.startFrame]
  repeat' split
  all_goals simp

@[simp] theorem rams_bandCheck (c n sof pri org : Nat) (s : State) : (State.bandCheck c n sof pri org s).rams =
    s.rams := by
  simp only [State.bandCheck]
  repeat' split
  all_goals simp

@[simp] theorem rams_receiveFrom (c n edge : Nat) (head : List Bool) (s : State) : (State.receiveFrom c n edge head
    s).rams = s.rams := by
  simp only [State.receiveFrom]
  repeat' split
  all_goals simp

@[simp] theorem rams_bandAtError (c n : Nat) (sc : Scan) (s : State) : (State.bandAtError c n sc s).rams = s.rams
    := by
  simp only [State.bandAtError]
  repeat' split
  all_goals simp

@[simp] theorem rams_sofReceived (c n : Nat) (head : List Bool) (s : State) : (State.sofReceived c n head s).rams =
    s.rams := by
  simp only [State.sofReceived]
  repeat' split
  all_goals simp

@[simp] theorem rams_offRound (c n : Nat) (s : State) : (State.offRound c n s).rams = s.rams := by
  simp only [State.offRound]
  repeat' split
  all_goals simp

@[simp] theorem rams_countError (c n dT dR ty fl : Nat) (s : State) : (State.countError c n dT dR ty fl s).rams =
    s.rams := by
  simp only [State.countError]
  simp

@[simp] theorem rams_listenError (c ty : Nat) (dph : Bool) (pos field : Nat) (s : State) : (State.listenError c ty
    dph pos field s).rams = s.rams := by
  simp only [State.listenError]
  simp

@[simp] theorem rams_overload (c n : Nat) (s : State) : (State.overload c n s).rams = s.rams := by
  simp only [State.overload]
  repeat' split
  all_goals simp

@[simp] theorem rams_lastEofError (c n pos : Nat) (s : State) : (State.lastEofError c n pos s).rams = s.rams := by
  simp only [State.lastEofError]
  repeat' split
  all_goals simp

@[simp] theorem rams_setMaster (c m : Nat) (s : State) : (State.setMaster c m s).rams = s.rams := by
  simp only [State.setMaster]
  repeat' split
  all_goals simp

@[simp] theorem rams_beaconReference (n : Nat) (b : Beacon) (s : State) : (State.beaconReference n b s).rams =
    s.rams := by
  simp only [State.beaconReference]
  repeat' split
  all_goals simp

@[simp] theorem rams_takeBeacon (c n : Nat) (b : Beacon) (own : Bool) (s : State) : (State.takeBeacon c n b own
    s).rams = s.rams := by
  simp only [State.takeBeacon]
  repeat' split
  all_goals simp

@[simp] theorem rams_answerRequest (n : Nat) (f : BusFrame) (s : State) : (State.answerRequest n f s).rams = s.rams
    := by
  simp only [State.answerRequest]
  repeat' split
  all_goals simp

@[simp] theorem rams_acceptOwn (c n : Nat) (a : Attempt) (s : State) : (State.acceptOwn c n a s).rams = s.rams := by
  simp only [State.acceptOwn]
  simp

@[simp] theorem rams_groupTraffic (n : Nat) (a : Attempt) (s : State) : (State.groupTraffic n a s).rams = s.rams :=
    by
  simp only [State.groupTraffic]
  simp

@[simp] theorem rams_owedWake (n : Nat) (s : State) : (State.owedWake n s).rams = s.rams := by
  simp only [State.owedWake]
  repeat' split
  all_goals simp

@[simp] theorem rams_joinBus (c n : Nat) (s : State) : (State.joinBus c n s).rams = s.rams := by
  simp only [State.joinBus]
  simp

@[simp] theorem rams_integrated (c n : Nat) (s : State) : (State.integrated c n s).rams = s.rams := by
  simp only [State.integrated]
  repeat' split
  all_goals simp

@[simp] theorem rams_recovered (c n : Nat) (s : State) : (State.recovered c n s).rams = s.rams := by
  simp only [State.recovered]
  repeat' split
  all_goals simp

@[simp] theorem rams_pushDue (c : Nat) (s : State) : (State.pushDue c s).rams = s.rams := by
  simp only [State.pushDue]
  repeat' split
  all_goals simp

/-! ### Machine/Boundary.lean -/

@[simp] theorem rams_cutPhase (ph items : Nat) (counted : Bool) (miss : Field) (s : State) : (State.cutPhase ph
    items counted miss s).rams = s.rams := by
  simp only [State.cutPhase]
  repeat' split
  all_goals simp

@[simp] theorem rams_cutEmit (s : State) : (State.cutEmit s).rams = s.rams := by
  simp only [State.cutEmit]
  simp

@[simp] theorem rams_holdNextEmit (l : List Nat) (s : State) : (State.holdNextEmit l s).rams = s.rams := by
  simp only [State.holdNextEmit]
  simp

@[simp] theorem rams_escalate (ph : Nat) (blk : List Nat) (s : State) : (State.escalate ph blk s).rams = s.rams :=
    by
  simp only [State.escalate]
  repeat' split
  all_goals simp

@[simp] theorem rams_openTick (b n : Nat) (s : State) : (State.openTick b n s).rams = s.rams := by
  simp only [State.openTick]
  repeat' split
  all_goals simp

@[simp] theorem rams_turnLists (s : State) : (State.turnLists s).rams = s.rams := by
  simp only [State.turnLists]
  repeat' split
  all_goals simp

@[simp] theorem rams_cellBoundary (c : Nat) (s : State) : (State.cellBoundary c s).rams = s.rams := by
  simp only [State.cellBoundary]
  repeat' split
  all_goals simp

@[simp] theorem rams_loadBoundary (n p : Nat) (s : State) : (State.loadBoundary n p s).rams = s.rams := by
  simp only [State.loadBoundary]
  repeat' split
  all_goals simp

@[simp] theorem rams_idlePower (n : Nat) (s : State) : (State.idlePower n s).rams = s.rams := by
  simp only [State.idlePower]
  repeat' split
  all_goals simp

@[simp] theorem rams_portBoundary (n : Nat) (s : State) : (State.portBoundary n s).rams = s.rams := by
  simp only [State.portBoundary]
  repeat' split
  all_goals simp

@[simp] theorem rams_bindsBoundary (stored : List (Nat × Nat)) (s : State) : (State.bindsBoundary stored s).rams =
    s.rams := by
  simp only [State.bindsBoundary]
  simp

@[simp] theorem rams_partnerPower (s : State) : (State.partnerPower s).rams = s.rams := by
  simp only [State.partnerPower]
  simp

@[simp] theorem rams_countBoundary (s : State) : (State.countBoundary s).rams = s.rams := by
  unfold State.countBoundary; rfl

@[simp] theorem rams_sendTick (s : State) : (State.sendTick s).rams = s.rams := by
  simp only [State.sendTick]
  simp

@[simp] theorem rams_applyRole (n : Nat) (s : State) : (State.applyRole n s).rams = s.rams := by
  simp only [State.applyRole]
  simp

/-! ### Machine/Commands.lean -/

@[simp] theorem rams_stageWords (key : Nat) (ws : List Nat) (s : State) : (State.stageWords key ws s).rams = s.rams
    := by
  simp only [State.stageWords]
  simp

@[simp] theorem rams_wakeActive (n group : Nat) (s : State) : (State.wakeActive n group s).rams = s.rams := by
  simp only [State.wakeActive]
  repeat' split
  all_goals simp

@[simp] theorem rams_commitLate (p : Packet) (s : State) : (State.commitLate p s).rams = s.rams := by
  simp only [State.commitLate]
  repeat' split
  all_goals simp

@[simp] theorem rams_cancelCommit (seq : Nat) (s : State) : (State.cancelCommit seq s).rams = s.rams := by
  simp only [State.cancelCommit]
  repeat' split
  all_goals simp

@[simp] theorem rams_dropStage (s : State) : (State.dropStage s).rams = s.rams := by
  simp only [State.dropStage]
  repeat' split
  all_goals simp

/-! ### Machine/Control.lean -/

@[simp] theorem rams_clearPatch (s : State) : (State.clearPatch s).rams = s.rams := by
  simp only [State.clearPatch]
  simp

@[simp] theorem rams_deactivatePatch (s : State) : (State.deactivatePatch s).rams = s.rams := by
  simp only [State.deactivatePatch]
  repeat' split
  all_goals simp

/-! ### Machine/Packets.lean -/

@[simp] theorem rams_hostPacket (ws : List Nat) (s : State) : (State.hostPacket ws s).rams = s.rams := by
  simp only [State.hostPacket]
  repeat' split
  all_goals simp

/-! ### Machine/Stream.lean -/

@[simp] theorem rams_streamEmit (i : Nat) (d : Dword) (tick : Nat) (s : State) : (State.streamEmit i d tick s).rams
    = s.rams := by
  simp only [State.streamEmit]
  repeat' split
  all_goals simp

@[simp] theorem rams_streamResult (op seq status : Nat) (results : List Nat) (s : State) : (State.streamResult op
    seq status results s).rams = s.rams := by
  simp only [State.streamResult]
  repeat' split
  all_goals simp

end State
end Sys2Proof.Machine
end

