-- ==== Sys2Proof/Laws/RamsOk.lean ====
section
/-! SUPPORT. The functions that write RAMs, one lemma each: they keep the canonical form. -/

namespace Sys2Proof.Machine
namespace State

/-! ### Machine/Buffers.lean -/

@[simp] theorem ok_wrS0 (n d v : Nat) (s : State) (h : okRams s.rams) : okRams (State.wrS0 n d v s).rams := by
  simp only [State.wrS0]
  simp +contextual (maxDischargeDepth := 12) [h]

@[simp] theorem ok_wrS1 (n d v : Nat) (s : State) (h : okRams s.rams) : okRams (State.wrS1 n d v s).rams := by
  simp only [State.wrS1]
  simp +contextual (maxDischargeDepth := 12) [h]

@[simp] theorem ok_setS0 (n d hi lo x : Nat) (s : State) (h : okRams s.rams) : okRams (State.setS0 n d hi lo x
    s).rams := by
  simp only [State.setS0]
  simp +contextual (maxDischargeDepth := 12) [h]

@[simp] theorem ok_addLost (n d : Nat) (s : State) (h : okRams s.rams) : okRams (State.addLost n d s).rams := by
  simp only [State.addLost]
  simp +contextual (maxDischargeDepth := 12) [h]

@[simp] theorem ok_addCount (n d : Nat) (s : State) (h : okRams s.rams) : okRams (State.addCount n d s).rams := by
  simp only [State.addCount]
  simp +contextual (maxDischargeDepth := 12) [h]

@[simp] theorem ok_withdraw (n d cause : Nat) (s : State) (h : okRams s.rams) : okRams (State.withdraw n d cause
    s).rams := by
  simp only [State.withdraw]
  simp +contextual (maxDischargeDepth := 12) [h]

@[simp] theorem ok_withdrawAll (n cause : Nat) (s : State) (h : okRams s.rams) : okRams (State.withdrawAll n cause
    s).rams := by
  simp only [State.withdrawAll]
  simp +contextual (maxDischargeDepth := 12) [h]

@[simp] theorem ok_loseFrame (n d : Nat) (s : State) (h : okRams s.rams) : okRams (State.loseFrame n d s).rams := by
  simp only [State.loseFrame]
  simp +contextual (maxDischargeDepth := 12) [h]

@[simp] theorem ok_claimStore (c n d : Nat) (rec : List Word) (s : State) (h : okRams s.rams) : okRams
    (State.claimStore c n d rec s).rams := by
  simp only [State.claimStore]
  simp +contextual (maxDischargeDepth := 12) [h]

@[simp] theorem ok_closeStore (c n : Nat) (o : OpenStore) (s : State) (h : okRams s.rams) : okRams
    (State.closeStore c n o s).rams := by
  simp only [State.closeStore]
  simp +contextual (maxDischargeDepth := 12) [h]

@[simp] theorem ok_hostS1 (n d : Nat) (hold rel : Bool) (s : State) (h : okRams s.rams) : okRams (State.hostS1 n d
    hold rel s).rams := by
  simp only [State.hostS1]
  simp +contextual (maxDischargeDepth := 12) [h]

@[simp] theorem ok_captureBuffer (n d : Nat) (s : State) (h : okRams s.rams) : okRams (State.captureBuffer n d
    s).rams := by
  simp only [State.captureBuffer]
  simp +contextual (maxDischargeDepth := 12) [h]

@[simp] theorem ok_markUncertain (n d : Nat) (s : State) (h : okRams s.rams) : okRams (State.markUncertain n d
    s).rams := by
  simp only [State.markUncertain]
  simp +contextual (maxDischargeDepth := 12) [h]

@[simp] theorem ok_skipCapture (n d : Nat) (s : State) (h : okRams s.rams) : okRams (State.skipCapture n d s).rams
    := by
  simp only [State.skipCapture]
  simp +contextual (maxDischargeDepth := 12) [h]

@[simp] theorem ok_claimEmit (n d : Nat) (s : State) (h : okRams s.rams) : okRams (State.claimEmit n d s).rams := by
  simp only [State.claimEmit]
  simp +contextual (maxDischargeDepth := 12) [h]

@[simp] theorem ok_closeEmit (n : Nat) (x : OpenXfer) (payload : List Word) (s : State) (h : okRams s.rams) :
    okRams (State.closeEmit n x payload s).rams := by
  simp only [State.closeEmit]
  simp +contextual (maxDischargeDepth := 12) [h]

@[simp] theorem ok_bufferLive (n d : Nat) (old : Sparse Nat) (s : State) (h : okRams s.rams) : okRams
    (State.bufferLive n d old s).rams := by
  simp only [State.bufferLive]
  simp +contextual (maxDischargeDepth := 12) [h]

/-! ### Machine/Cells.lean -/

@[simp] theorem ok_suspend (n d : Nat) (s : State) (h : okRams s.rams) : okRams (State.suspend n d s).rams := by
  simp only [State.suspend]
  simp +contextual (maxDischargeDepth := 12) [h]

@[simp] theorem ok_reportClash (c n pri kind orgA orgB : Nat) (target : Option Nat) (s : State) (h : okRams s.rams)
    : okRams (State.reportClash c n pri kind orgA orgB target s).rams := by
  simp only [State.reportClash]
  repeat' split
  all_goals simp +contextual (maxDischargeDepth := 12) [h]

@[simp] theorem ok_clashFrame (c n : Nat) (pri kind org len : Nat) (payload : List Nat) (target : Option Nat) (s :
    State) (h : okRams s.rams) : okRams (State.clashFrame c n pri kind org len payload target s).rams := by
  simp only [State.clashFrame]
  repeat' split
  all_goals simp +contextual (maxDischargeDepth := 12) [h]

@[simp] theorem ok_clashAttempt (c n d : Nat) (bitError : Bool) (s : State) (h : okRams s.rams) : okRams
    (State.clashAttempt c n d bitError s).rams := by
  simp only [State.clashAttempt]
  simp +contextual (maxDischargeDepth := 12) [h]

@[simp] theorem ok_claimFetch (c n : Nat) (s : State) (h : okRams s.rams) : okRams (State.claimFetch c n s).rams :=
    by
  simp only [State.claimFetch]
  repeat' split
  all_goals simp +contextual (maxDischargeDepth := 12) [h]

@[simp] theorem ok_closeFetch (c n : Nat) (s : State) (h : okRams s.rams) : okRams (State.closeFetch c n s).rams :=
    by
  simp only [State.closeFetch]
  repeat' split
  all_goals simp +contextual (maxDischargeDepth := 12) [h]

/-! ### Machine/Gateway.lean -/

@[simp] theorem ok_landKnot (r : KnotWriteRec) (s : State) (h : okRams s.rams) : okRams (State.landKnot r s).rams
    := by
  simp only [State.landKnot]
  simp +contextual (maxDischargeDepth := 12) [h]

@[simp] theorem ok_landUpTo (t : Nat) (s : State) (h : okRams s.rams) : okRams (State.landUpTo t s).rams := by
  simp only [State.landUpTo]
  simp +contextual (maxDischargeDepth := 12) [h]

@[simp] theorem ok_issueKnot (l : Nat) (differs : Bool) (s : State) (h : okRams s.rams) : okRams (State.issueKnot l
    differs s).rams := by
  simp only [State.issueKnot]
  repeat' split
  all_goals simp +contextual (maxDischargeDepth := 12) [h]

@[simp] theorem ok_applyEntry (e : HostWrite) (s : State) (h : okRams s.rams) : okRams (State.applyEntry e s).rams
    := by
  simp only [State.applyEntry]
  simp +contextual (maxDischargeDepth := 12) [h]

@[simp] theorem ok_applyDue (s : State) (h : okRams s.rams) : okRams (State.applyDue s).rams := by
  simp only [State.applyDue]
  simp +contextual (maxDischargeDepth := 12) [h]

@[simp] theorem ok_hostKnot (i : Nat) (d : Dword) (s : State) (h : okRams s.rams) : okRams (State.hostKnot i d
    s).rams := by
  simp only [State.hostKnot]
  simp +contextual (maxDischargeDepth := 12) [h]

/-! ### Machine/Profile.lean -/

@[simp] theorem ok_writeArea (n : Nat) (s : State) (h : okRams s.rams) : okRams (State.writeArea n s).rams := by
  simp only [State.writeArea]
  repeat' split
  all_goals simp +contextual (maxDischargeDepth := 12) [h]

@[simp] theorem ok_skipArea (n : Nat) (s : State) (h : okRams s.rams) : okRams (State.skipArea n s).rams := by
  simp only [State.skipArea]
  simp +contextual (maxDischargeDepth := 12) [h]

/-! ### Machine/Tick.lean -/

@[simp] theorem ok_react (ph : TickPhase) (code : Nat) (items : List Item) (scope : List Nat) (s : State) (h :
    okRams s.rams) : okRams (State.react ph code items scope s).rams := by
  simp only [State.react]
  repeat' split
  all_goals simp +contextual (maxDischargeDepth := 12) [h]

@[simp] theorem ok_stopIfEmpty (ph : TickPhase) (s : State) (h : okRams s.rams) : okRams (State.stopIfEmpty ph
    s).rams := by
  simp only [State.stopIfEmpty]
  repeat' split
  all_goals simp +contextual (maxDischargeDepth := 12) [h]

@[simp] theorem ok_missMapDeadline (s : State) (h : okRams s.rams) : okRams (State.missMapDeadline s).rams := by
  simp only [State.missMapDeadline]
  simp +contextual (maxDischargeDepth := 12) [h]

@[simp] theorem ok_captureOne (i : State.Item) (s : State) (h : okRams s.rams) : okRams (State.captureOne i s).rams
    := by
  simp only [State.captureOne]
  simp +contextual (maxDischargeDepth := 12) [h]

@[simp] theorem ok_captureComplete (s : State) (h : okRams s.rams) : okRams (State.captureComplete s).rams := by
  simp only [State.captureComplete]
  simp +contextual (maxDischargeDepth := 12) [h]

@[simp] theorem ok_mapComplete (s : State) (h : okRams s.rams) : okRams (State.mapComplete s).rams := by
  simp only [State.mapComplete]
  simp +contextual (maxDischargeDepth := 12) [h]

@[simp] theorem ok_emitOne (i : State.Item) (s : State) (h : okRams s.rams) : okRams (State.emitOne i s).rams := by
  simp only [State.emitOne]
  simp +contextual (maxDischargeDepth := 12) [h]

/-! ### Machine/Spares.lean -/

@[simp] theorem ok_isolateCell (c n : Nat) (idle : Bool) (s : State) (h : okRams s.rams) : okRams
    (State.isolateCell c n idle s).rams := by
  simp only [State.isolateCell]
  repeat' split
  all_goals simp +contextual (maxDischargeDepth := 12) [h]

@[simp] theorem ok_loseCell (n c cause : Nat) (s : State) (h : okRams s.rams) : okRams (State.loseCell n c cause
    s).rams := by
  simp only [State.loseCell]
  simp +contextual (maxDischargeDepth := 12) [h]

@[simp] theorem ok_replaceCell (n c cause : Nat) (bad : Bool) (s : State) (h : okRams s.rams) : okRams
    (State.replaceCell n c cause bad s).rams := by
  simp only [State.replaceCell]
  simp +contextual (maxDischargeDepth := 12) [h]

@[simp] theorem ok_dropTakeover (b : Nat) (s : State) (h : okRams s.rams) : okRams (State.dropTakeover b s).rams :=
    by
  simp only [State.dropTakeover]
  repeat' split
  all_goals simp +contextual (maxDischargeDepth := 12) [h]

@[simp] theorem ok_failCell (c cause : Nat) (idle bad : Bool) (s : State) (h : okRams s.rams) : okRams
    (State.failCell c cause idle bad s).rams := by
  simp only [State.failCell]
  repeat' split
  all_goals simp +contextual (maxDischargeDepth := 12) [h]

@[simp] theorem ok_evaluateRotation (b : Nat) (s : State) (h : okRams s.rams) : okRams (State.evaluateRotation b
    s).rams := by
  simp only [State.evaluateRotation]
  repeat' split
  all_goals simp +contextual (maxDischargeDepth := 12) [h]

/-! ### Machine/Bridge.lean -/

@[simp] theorem ok_sendService (n d pri : Nat) (payload : List Word) (s : State) (h : okRams s.rams) : okRams
    (State.sendService n d pri payload s).rams := by
  simp only [State.sendService]
  simp +contextual (maxDischargeDepth := 12) [h]

/-! ### Machine/Live.lean -/

@[simp] theorem ok_applyTiming (n : Nat) (s : State) (h : okRams s.rams) : okRams (State.applyTiming n s).rams := by
  simp only [State.applyTiming]
  simp +contextual (maxDischargeDepth := 12) [h]

@[simp] theorem ok_timingLive (n : Nat) (newRate : Bool) (s : State) (h : okRams s.rams) : okRams (State.timingLive
    n newRate s).rams := by
  simp only [State.timingLive]
  simp +contextual (maxDischargeDepth := 12) [h]

/-! ### Machine/HostPort.lean -/

@[simp] theorem ok_writeRam (b i : Nat) (d : Dword) (s : State) (h : okRams s.rams) : okRams (State.writeRam b i d
    s).rams := by
  simp only [State.writeRam]
  repeat' split
  all_goals simp +contextual (maxDischargeDepth := 12) [h]

@[simp] theorem ok_streamOut (a : Nat) (d : Dword) (s : State) (h : okRams s.rams) : okRams (State.streamOut a d
    s).rams := by
  simp only [State.streamOut]
  simp +contextual (maxDischargeDepth := 12) [h]

/-! ### Machine/Bus.lean -/

@[simp] theorem ok_loseArbitration (c n edge : Nat) (head : List Bool) (s : State) (h : okRams s.rams) : okRams
    (State.loseArbitration c n edge head s).rams := by
  simp only [State.loseArbitration]
  repeat' split
  all_goals simp +contextual (maxDischargeDepth := 12) [h]

@[simp] theorem ok_flagError (c n : Nat) (tx : Bool) (ty field pos : Nat) (dph noDom arbStuff : Bool) (s : State)
    (h : okRams s.rams) : okRams (State.flagError c n tx ty field pos dph noDom arbStuff s).rams := by
  simp only [State.flagError]
  repeat' split
  all_goals simp +contextual (maxDischargeDepth := 12) [h]

@[simp] theorem ok_afterFlag (c n : Nat) (e : FlagEvent) (noDom : Bool) (s : State) (h : okRams s.rams) : okRams
    (State.afterFlag c n e noDom s).rams := by
  simp only [State.afterFlag]
  repeat' split
  all_goals simp +contextual (maxDischargeDepth := 12) [h]

@[simp] theorem ok_busError (c n : Nat) (bits : List Bool) (noDom : Bool) (s : State) (h : okRams s.rams) : okRams
    (State.busError c n bits noDom s).rams := by
  simp only [State.busError]
  repeat' split
  all_goals simp +contextual (maxDischargeDepth := 12) [h]

@[simp] theorem ok_bufferSent (n d sof : Nat) (s : State) (h : okRams s.rams) : okRams (State.bufferSent n d sof
    s).rams := by
  simp only [State.bufferSent]
  simp +contextual (maxDischargeDepth := 12) [h]

@[simp] theorem ok_sourceSent (c n : Nat) (a : Attempt) (s : State) (h : okRams s.rams) : okRams (State.sourceSent
    c n a s).rams := by
  simp only [State.sourceSent]
  repeat' split
  all_goals simp +contextual (maxDischargeDepth := 12) [h]

@[simp] theorem ok_validSent (c n : Nat) (bits : List Bool) (s : State) (h : okRams s.rams) : okRams
    (State.validSent c n bits s).rams := by
  simp only [State.validSent]
  repeat' split
  all_goals simp +contextual (maxDischargeDepth := 12) [h]

@[simp] theorem ok_claimDue (c n : Nat) (s : State) (h : okRams s.rams) : okRams (State.claimDue c n s).rams := by
  simp only [State.claimDue]
  repeat' split
  all_goals simp +contextual (maxDischargeDepth := 12) [h]

@[simp] theorem ok_fetchNow (c n : Nat) (s : State) (h : okRams s.rams) : okRams (State.fetchNow c n s).rams := by
  simp only [State.fetchNow]
  repeat' split
  all_goals simp +contextual (maxDischargeDepth := 12) [h]

@[simp] theorem ok_serveCell (c : Nat) (s : State) (h : okRams s.rams) : okRams (State.serveCell c s).rams := by
  simp only [State.serveCell]
  repeat' split
  all_goals simp +contextual (maxDischargeDepth := 12) [h]

@[simp] theorem ok_portATurn (c : Nat) (s : State) (h : okRams s.rams) : okRams (State.portATurn c s).rams := by
  simp only [State.portATurn]
  simp +contextual (maxDischargeDepth := 12) [h]

@[simp] theorem ok_beginStore (c n : Nat) (s : State) (h : okRams s.rams) : okRams (State.beginStore c n s).rams :=
    by
  simp only [State.beginStore]
  simp +contextual (maxDischargeDepth := 12) [h]

@[simp] theorem ok_endStore (c n : Nat) (s : State) (h : okRams s.rams) : okRams (State.endStore c n s).rams := by
  simp only [State.endStore]
  repeat' split
  all_goals simp +contextual (maxDischargeDepth := 12) [h]

@[simp] theorem ok_beginPush (c : Nat) (s : State) (h : okRams s.rams) : okRams (State.beginPush c s).rams := by
  simp only [State.beginPush]
  simp +contextual (maxDischargeDepth := 12) [h]

@[simp] theorem ok_endPush (c : Nat) (s : State) (h : okRams s.rams) : okRams (State.endPush c s).rams := by
  simp only [State.endPush]
  repeat' split
  all_goals simp +contextual (maxDischargeDepth := 12) [h]

@[simp] theorem ok_beginFetch (c n : Nat) (s : State) (h : okRams s.rams) : okRams (State.beginFetch c n s).rams :=
    by
  simp only [State.beginFetch]
  repeat' split
  all_goals simp +contextual (maxDischargeDepth := 12) [h]

@[simp] theorem ok_endFetch (c n : Nat) (s : State) (h : okRams s.rams) : okRams (State.endFetch c n s).rams := by
  simp only [State.endFetch]
  simp +contextual (maxDischargeDepth := 12) [h]

/-! ### Machine/Boundary.lean -/

@[simp] theorem ok_cutCapture (s : State) (h : okRams s.rams) : okRams (State.cutCapture s).rams := by
  simp only [State.cutCapture]
  simp +contextual (maxDischargeDepth := 12) [h]

@[simp] theorem ok_cutMap (k : Nat) (s : State) (h : okRams s.rams) : okRams (State.cutMap k s).rams := by
  simp only [State.cutMap]
  simp +contextual (maxDischargeDepth := 12) [h]

@[simp] theorem ok_cutPhases (k : Nat) (s : State) (h : okRams s.rams) : okRams (State.cutPhases k s).rams := by
  simp only [State.cutPhases]
  simp +contextual (maxDischargeDepth := 12) [h]

@[simp] theorem ok_withdrawQuiet (n d : Nat) (s : State) (h : okRams s.rams) : okRams (State.withdrawQuiet n d
    s).rams := by
  simp only [State.withdrawQuiet]
  simp +contextual (maxDischargeDepth := 12) [h]

@[simp] theorem ok_checkPort (n : Nat) (s : State) (h : okRams s.rams) : okRams (State.checkPort n s).rams := by
  simp only [State.checkPort]
  simp +contextual (maxDischargeDepth := 12) [h]

@[simp] theorem ok_cellChecks (s : State) (h : okRams s.rams) : okRams (State.cellChecks s).rams := by
  simp only [State.cellChecks]
  simp +contextual (maxDischargeDepth := 12) [h]

@[simp] theorem ok_frameBoundary (n : Nat) (s : State) (h : okRams s.rams) : okRams (State.frameBoundary n s).rams
    := by
  simp only [State.frameBoundary]
  simp +contextual (maxDischargeDepth := 12) [h]

/-! ### Machine/Commands.lean -/

@[simp] theorem ok_putKnot (k : Nat) (w : KnotWords) (s : State) (h : okRams s.rams) : okRams (State.putKnot k w
    s).rams := by
  simp only [State.putKnot]
  simp +contextual (maxDischargeDepth := 12) [h]

@[simp] theorem ok_putScale (e : Nat) (l : List Nat) (s : State) (h : okRams s.rams) : okRams (State.putScale e l
    s).rams := by
  simp only [State.putScale]
  simp +contextual (maxDischargeDepth := 12) [h]

/-! ### Host writes and the writes of the tether stream -/

@[simp] theorem rams_seekSlot (k : Nat) (s : State) : (seekSlot k s).rams = s.rams := by
  induction k generalizing s with
  | zero => rfl
  | succ k ih =>
    simp only [seekSlot]
    split
    · rw [ih]; simp
    · rfl

@[simp] theorem rams_hostSlot (a : Nat) (s : State) : (hostSlot a s).rams = s.rams := by
  simp only [hostSlot]
  split
  · simp
  · simp

@[simp] theorem rams_startAction (f : Field) (s : State) : (startAction f s).rams = s.rams := by
  simp only [startAction]
  repeat' split
  all_goals simp

/-- What a host access does in its presentation clk keeps the RAMs in form. -/
theorem ok_onHost (a : Nat) (f : State → State) (s : State) (h : okRams s.rams)
    (hf : ∀ t : State, okRams t.rams → okRams (f t).rams) : okRams (onHost a f s).rams := by
  unfold onHost
  split
  · exact hf _ (by simpa using h)
  · exact h

@[simp] theorem ok_writeReg (a : Nat) (fs : List Field) (d : Nat) (stream : Bool) (s : State) (h : okRams s.rams) :
    okRams (writeReg a fs d stream s).rams := by
  unfold writeReg
  dsimp only
  repeat' split
  all_goals
    repeat' refine each_keeps (P := fun t => okRams t.rams) _ ?_ fun _ _ t ht => by simp [ht]
  all_goals simp [h]

@[simp] theorem ok_writeReady (a : Nat) (d : Dword) (stream : Bool) (s : State) (h : okRams s.rams) :
    okRams (writeReady a d stream s).rams := by
  unfold writeReady
  dsimp only
  repeat' split
  all_goals simp [h]

@[simp] theorem ok_landWrite (a : Nat) (d : Dword) (s : State) (h : okRams s.rams) : okRams (landWrite a d s).rams := by
  unfold landWrite
  simp [h]

@[simp] theorem ok_hostWrite (a : Nat) (d : Dword) (s : State) (h : okRams s.rams) : okRams (hostWrite a d s).rams :=
  ok_onHost a _ s h fun t ht => by simp [ht]

@[simp] theorem ok_hostSet (f : Field) (v : Nat) (s : State) (h : okRams s.rams) : okRams (hostSet f v s).rams :=
  ok_onHost _ _ s h fun t ht => by simp [ht]

@[simp] theorem ok_parityWrite (a : Nat) (d : Dword) (s : State) (h : okRams s.rams) :
    okRams (parityWrite a d s).rams := by
  refine ok_onHost _ _ s h fun t ht => ?_
  dsimp only
  repeat' split
  all_goals simp [ht]

@[simp] theorem ok_streamWrite (a : Nat) (d : Dword) (tick : Nat) (s : State) (h : okRams s.rams) :
    okRams (streamWrite a d tick s).rams := by
  unfold streamWrite
  repeat' split
  all_goals simp [h]

end State
end Sys2Proof.Machine
end

