-- ==== Sys2Proof/Tests/Slice0.lean ====
section
/-! SUPPORT. Tests: ill-formed commands, worked examples of the spec, and for every statement states that meet its
hypotheses. -/

namespace Sys2Proof.Tests
open Sys2Proof.Machine
set_option Elab.async false

/-! ### Helpers -/

/-- A command packet of the host, not quiet, without FENCE or TRACK. -/
def pkt (seq : Nat) (args : List Nat) : Packet := ⟨false, false, false, BitVec.ofNat 12 seq, .host, args.map wordOf⟩

/-- A device that is READY, its blocks on. -/
def dev : State := ({ power := { phase := .ready } } : State).wr F.SYS_PWRDOM.ON 0xFFF

/-- The target word T of port `n` and item `i`. -/
def tgt (n i : Nat) : Nat := n * 128 + i

/-- Table entries written live. -/
def putWords (key : Nat) (ws : List Nat) (s : State) : State :=
  ((List.range ws.length).zip ws).foldl (fun s e => s.wrK (key + e.1) e.2) s

/-! ### Ill-formed commands -/

theorem test_packet_wf : (Instr.nop (pkt 1 (List.replicate 63 0))).wf = true ∧
    (Instr.nop (pkt 1 (List.replicate 64 0))).wf = false := by decide +kernel

theorem test_stream_wf : (Instr.streamItem (.remoteResult 0x41 1 0 (List.replicate 64 0))).wf = false ∧
    (Instr.streamItem (.command 1 (pkt 1 (List.replicate 64 0)) 0)).wf = false := by decide +kernel

/-! ### Witnesses: commands and the engine -/

theorem witness_idle : State.reset.pending = [] ∧ State.reset.power.phase ≠ .ready ∧ dev.pending = [] ∧
    dev.power.phase = .ready ∧ dev.tick.slew = 0 ∧ dev.rateNow = 0 ∧ dev.tick.rateAcc.natAbs < 2 ^ 24 := by decide +kernel

theorem witness_wf : (Instr.tickBoundary).wf = true ∧ (Instr.nop (pkt 1 (List.replicate 64 0))).wf = false := by
  decide +kernel

theorem witness_reads : dev.starts cmdNop (pkt 1 []) = true ∧ dev.starts cmdIdent (pkt 2 []) = true ∧
    dev.starts cmdLedgerQuery (pkt 3 [2 ^ 16]) = true ∧ dev.starts cmdJournalRead (pkt 4 [7 * 2 ^ 12 + 0xFFF]) = true ∧
    dev.starts cmdTelemetryRead (pkt 5 [60 * 2 ^ 8 + 0x34]) = true := by decide +kernel

theorem witness_portStaging : dev.starts cmdPortConfig (pkt 1 [tgt 95 0, 1, 0, 0]) = true ∧
    dev.starts cmdPortMode (pkt 2 [tgt 0 0x1]) = true ∧
    dev.starts cmdPortTiming (pkt 3 [15 * 2 ^ 14 + tgt 95 0, 2 ^ 4, 0x00000, 0]) = true ∧
    dev.starts cmdTickConfig (pkt 4 [2, 50000, 0]) = true := by decide +kernel

/-- The same with every port in compatibility. -/
def devCompat : State := (List.range 108).foldl (fun s c => s.wr (F.CL_OPMODE.PROTO c) 1) dev

theorem witness_unitStaging : dev.starts cmdQueueConfig (pkt 1 [0x211, 0, 0, 0, 0]) = true ∧
    dev.starts cmdSpliceSet (pkt 2 [2 ^ 17, 200, 10 * 2 ^ 17 / 2 ^ 18 + 10]) = true ∧
    dev.starts cmdSpliceSet (pkt 2 [15, 0x3FF, 0, 0, 0, 1, 0x80, 0, 0]) = true ∧
    spliceCompat (Operand.args (pkt 2 [15, 0x3FF, 0, 0, 0, 1, 0x80, 0, 0])) dev = false ∧
    devCompat.starts cmdSpliceSet (pkt 2 [15, 0x3FF, 0, 0, 0, 1, 0x80, 0, 0]) = true ∧
    spliceCompat (Operand.args (pkt 2 [15, 0x3FF, 0, 0, 0, 1, 0x80, 0, 0])) devCompat = true ∧
    dev.starts cmdWakeFilter (pkt 3 [tgt 0 63, 0, 0]) = true ∧
    dev.starts cmdKnotListSet (pkt 4 [5, 100, 2 ^ 17 + 1, 0, 5, 200, 2 ^ 17 + 1, 0]) = true ∧
    dev.starts cmdTetherConfig (pkt 5 [1, 0x10 * 2 ^ 4 + 8]) = true ∧
    1 < [5, 100, 2 ^ 17 + 1, 0, 5, 200, 2 ^ 17 + 1, 0].length / 4 := by decide +kernel

theorem witness_tableStaging : dev.starts cmdFilterSet (pkt 1 [tgt 95 63, 0, 0, 0, 0, 0, 0]) = true ∧
    dev.starts cmdBufferSet (pkt 2 [tgt 0 127, 2 ^ 16 + 2 ^ 15 + 2, 0, 100, 2 * 2 ^ 13 + 0x900]) = true ∧
    dev.starts cmdProfileBind (pkt 3 [2047, 2 ^ 17 + 2 ^ 14, 0, 0, 0, 0, 0, 0, 0, 0, 0, 0, 0]) = true ∧
    dev.compatSet (Binding.of (bindWord (Operand.args (pkt 3 [2047, 2 ^ 17 + 2 ^ 14])))).port = false ∧
    devCompat.starts cmdProfileBind (pkt 3 [2047, 2 ^ 17 + 2 ^ 14, 0, 0, 0, 0, 0, 0, 0, 0, 0, 0, 0]) = true ∧
    devCompat.compatSet (Binding.of (bindWord (Operand.args (pkt 3 [2047, 2 ^ 17 + 2 ^ 14])))).port = true ∧
    dev.starts cmdProfilePolicy (pkt 4 [255, 0, 0, 0, 0, 0, 1]) = true ∧
    dev.starts cmdPortPower (pkt 5 [tgt 95 4]) = true := by decide +kernel

/-- A device in HOUSE of its tick, with two packets in RQ0 of port 0. -/
def devHouse : State := (dev.wr F.TK_STATUS.PHASE 3).modQueue 0 fun _ => { vis := packet [1, 2, 3] ++ packet [4] }

theorem witness_immediate : devHouse.starts cmdQueueCredit (pkt 1 [0x211, 72]) = true ∧
    devHouse.starts cmdQueueDrop (pkt 2 [0]) = true ∧ devHouse.starts cmdQueueDrop (pkt 2 [1]) = true ∧
    devHouse.starts cmdKnotWrite (pkt 3 [65535, 4 * 2 ^ 14, 0, 0, 0]) = true ∧
    devHouse.starts cmdScaleWrite (pkt 4 [4095, 1, 2, 3]) = true ∧
    devHouse.free' cmdQueueCredit (pkt 5 [0x211, 71]) = true ∧ devHouse.free' cmdQueueCredit (pkt 5 [0x211, 2049]) = true ∧
    devHouse.queueOn 0x211 = true ∧ dev.free' cmdTelemetryRead (pkt 5 [60 * 2 ^ 8 + 0x35]) = true ∧
    devHouse.free' cmdQueueDrop (pkt 5 [0x210]) = true ∧ devHouse.dropOk 0x210 = false := by decide +kernel

/-- A device with one handed-off command open. -/
def devHanded : State := dev.modEngine fun g => { g with handoffs := [⟨0x71, 9, false, 1, [], .host, 0, 3, none⟩] }

/-- A device whose patch RAM holds an image of one word but for its NWORDS. -/
def devPatch : State :=
  let crc := fcrc (bitsMsb 18 5)
  dev.modEngine fun g => { g with patch := [(0, 7), (2, wordOf crc), (3, wordOf (crc / 2 ^ 18)), (4, 5)] }

theorem witness_patchLoad : devHanded.starts cmdPatchLoad (pkt 1 [0, 5]) = true ∧ devHanded.engine.handoffs ≠ [] ∧
    dev.starts cmdPatchLoad (pkt 2 [4095, 5]) = true ∧ dev.engine.handoffs = [] ∧
    dev.starts cmdPatchLoad (pkt 3 [2 ^ 17]) = true ∧ dev.patchGood = false ∧
    devPatch.starts cmdPatchLoad (pkt 3 [2 ^ 17 + 1, 1]) = true ∧ devPatch.engine.handoffs = [] ∧
    bitOf (Operand.word (Operand.args (pkt 3 [2 ^ 17 + 1, 1])) 2) 17 = true := by decide +kernel

/-- A device with a commit waiting for its boundary. -/
def devLocked : State :=
  (((dev.stageK (powerKey 3) 1).wr F.CE_STAT.LOCK 1).modEngine fun g => { g with commit := some ⟨5, 0, 0, []⟩ }).wr
    F.CE_COMMIT.TICKNO 1

/-- A device whose staging copies hold a period that fails a check. -/
def devBad : State := dev.stageWr F.TK_DL_MAP.OFFSET 1

theorem witness_commit : dev.starts cmdCommit (pkt 1 []) = true ∧ dev.engine.commit = none ∧
    (dev.begun cmdCommit (pkt 1 [])).commitFails = none ∧ devBad.starts cmdCommit (pkt 1 []) = true ∧
    (devBad.begun cmdCommit (pkt 1 [])).commitFails = some (1, 0) ∧ devLocked.starts cmdCommit (pkt 1 []) = true ∧
    devLocked.engine.commit ≠ none := by decide +kernel

/-- The boundary clk of that commit, in which no commit waits behind it, or one does. -/
def devShut : State := devLocked.modTick fun u => { u with time := 50000 }
def devNext : State := devShut.modEngine fun g => { g with next := some ⟨7, 1, 0, []⟩ }

theorem witness_abandon : devLocked.starts cmdAbandon (pkt 1 []) = true ∧ devLocked.engine.commit ≠ none ∧
    devLocked.stageShut = false ∧ devShut.starts cmdAbandon (pkt 1 []) = true ∧ devShut.stageShut = true ∧
    devNext.starts cmdAbandon (pkt 1 []) = true ∧ devNext.stageShut = true ∧ devNext.engine.next ≠ none := by
  decide +kernel

theorem witness_commitNext : devShut.starts cmdCommit (pkt 1 []) = true ∧ devShut.stageShut = true ∧
    devShut.engine.next = none ∧ (devShut.begun cmdCommit (pkt 1 [])).commitFails = none ∧
    devNext.starts cmdCommit (pkt 1 []) = true ∧ devNext.stageShut = true ∧ devNext.engine.next ≠ none := by
  decide +kernel

/-- A device with a staging command that has waited 16 boundaries for the commit lock. -/
def devWaiting : State :=
  (devLocked.modEngine fun g => { g with
    waiting := some ⟨0x11, pkt 6 [tgt 0 0], 1, 16⟩, ledger := [(1, ⟨6, 0, 0, 1, 0, false, false, 0, false⟩)] }).wr F.CE_STAT.WAIT 2

theorem witness_status : (specOf 0xFF).listed = false ∧ dev.free' (specOf 0xFF) (pkt 1 [1]) = true ∧
    dev.free' cmdNop (pkt 2 [0]) = true ∧ dev.free' cmdPortMode (pkt 3 [tgt 96 0]) = true ∧
    Operand.portOk (Operand.args (pkt 3 [tgt 96 0])) = false ∧
    devWaiting.engine.waiting = some ⟨0x11, pkt 6 [tgt 0 0], 1, 16⟩ ∧ devWaiting.engine.rewound = [] ∧
    devWaiting.engine.behind = [] ∧ devWaiting.engine.handoffs = [] ∧ devWaiting.rd F.CE_CFG.WAITLIM ≤ 16 ∧ (specOf 0x11).opcode = 0x11 ∧
    devWaiting.waitCause (specOf 0x11) (pkt 6 [tgt 0 0]) true ≠ 0 ∧ 2 ≤ dev.credit qReply := by decide +kernel

/-- A device that owes the reply of a rewound command packet, and one that owes that of an ended handed-off command. -/
def devRewound : State := dev.modEngine fun g => { g with rewound := [⟨0x11, 9, 0x09⟩] }
def devEnded : State := dev.modEngine fun g => { g with handoffs := [⟨0x71, 9, false, 1, [], .host, 0, 3, some (0, [1, 0])⟩] }

theorem witness_owed : devRewound.power.phase = .ready ∧ devRewound.engine.waiting = none ∧ devRewound.engine.behind = [] ∧
    devEnded.engine.waiting = none ∧ devEnded.engine.behind = [] ∧ devRewound.engine.rewound = [⟨0x11, 9, 0x09⟩] ∧
    2 ≤ devRewound.credit qReply ∧ devEnded.power.phase = .ready ∧ 4 ≤ devEnded.credit qReply ∧
    devEnded.engine.handoffs = [⟨0x71, 9, false, 1, [], .host, 0, 3, some (0, [1, 0])⟩] := by decide +kernel

/-! ### Witnesses: frames and cells -/

/-- A device whose port 0 is ACTIVE and native with origin 5, its cell active, in an open tick. -/
def bus : State :=
  (((dev.wr (F.PW_PSTAT.STATE 0) 0).wr (F.CL_STATUS.CONF 0) 1).wr (F.CL_NATIVE.ORIGIN 0) 5).modTick fun u =>
    { u with time := 1000 }

/-- The same with port 0 in compatibility. -/
def busC : State := bus.modPort 0 fun P => { P with busProto := 1 }

/-- The bits of a frame with its ACK slot dominant, and `k` recessive bits after the ACK delimiter. -/
def heard (l : List Bool) (k : Nat) : List Bool := l.take (l.length - 13) ++ [true, false, true] ++ List.replicate k true

/-- The words of a native data frame record of PRI 9 with two payload words. -/
def rec2 : List Word := recordOf false false (9 * 2 ^ 7 + 2 ^ 4) 0 2 0 [11, 12]

/-- Transmit buffer 127 and receive buffer 3 of port 0. -/
def bufs (s : State) : State :=
  putWords (descKey 0 3 0) [2 ^ 16, 0, 0, 2 * 2 ^ 13 + 0xA00] (putWords (descKey 0 127 0) [2 * 2 ^ 16, 0, 0, 2 * 2 ^ 13 + 0x1FFE] s)

/-- Buffer 127 is pending and ready. -/
def busTx : State :=
  ((bufs bus).modPort 0 fun P => { P with pend := [127] }).modCell 0 fun C => { C with ready := some ⟨.buffer 127, rec2⟩ }

def busTdc : State := (busTx.wr (F.CL_TDC.TDCE 0) 1).wr (F.CL_TDC.TDCF 0) 20

theorem witness_frameStart : busTx.online 0 0 = true ∧ busTx.mayStart 0 0 ⟨.buffer 127, rec2⟩ = true ∧
    busTdc.online 0 0 = true ∧ busTdc.mayStart 0 0 ⟨.buffer 127, rec2⟩ = true ∧ busTdc.compat 0 = false ∧
    hBrs (TxFrame.w ⟨.buffer 127, rec2⟩ 1) = true ∧ busTdc.flag (F.CL_TDC.TDCE (State.home 0)) = true ∧
    max (127#8).toNat (busTdc.rd (F.CL_TDC.TDCF (State.home 0))) ≤ 127 := by decide +kernel

/-- With no ready frame none may start: `readyFrame` answers none. -/
theorem witness_noFrame : bus.online 0 0 = true ∧ bus.readyFrame 0 0 = none := by decide +kernel

/-- The cell sends buffer 127. -/
def att2 : Attempt := ⟨⟨.buffer 127, rec2⟩, 900, Native.sent ⟨9, 0, 5, true, 2, [11, 12]⟩, false⟩
def busAtt : State := busTx.modCell 0 fun C => { C with attempt := some att2, ready := none }

theorem witness_sof : bus.online 0 0 = true ∧ (bus.cell 0).attempt = none ∧ (bus.cell 0).stopped = false ∧
    bus.testMode 0 ≠ 2 ∧ bus.arState 0 ≠ 1 ∧ busAtt.online 0 0 = true ∧
    (busAtt.cell 0).attempt = some att2 ∧ att2.bits = busAtt.bitsSent 0 0 att2.frame := by decide +kernel

/-- The transmitter in ERROR_PASSIVE; a cell with its own active flag up, as transmitter and as receiver; a receiver in
compatibility mode without and with such a flag; a receiver whose frame has become valid. -/
def busPass : State := (busAtt.wr (F.CL_STATUS.CONF 0) 2).wr (F.CL_ECNT.TEC 0) 247
def flagOn (tx : Bool) (s : State) : State :=
  (s.modCell 0 fun C => { C with flag := List.replicate 6 false, flagTx := tx }).wr (F.CL_ECNT.REC 0) 250
def busFlag (tx : Bool) : State := flagOn tx bus
def low (k : Nat) : List Bool := List.replicate k false
def high (k : Nat) : List Bool := List.replicate k true

/-- Bits that end in an error: SOF and ten equal bits, an own frame whose ACK slot stays recessive. -/
def stuffed : List Bool := low 6
def unacked : List Bool := att2.bits.take (att2.bits.length - 11)

/-- The classical frame with identifier 0x123 and two data bytes as it is sent. -/
def can2 : List Bool := Compat.sent (0x123 * 2 ^ 7) 0 (pack [(2, 4), (2, 0)]) [0xABC]

/-- No sleep entry has held a wake in these states: the wakes decided before a frame row change nothing. -/
theorem witness_rewakes : bus.rewakes = bus ∧ busC.rewakes = busC ∧ busAtt.rewakes = busAtt := by decide +kernel

/-- A listening cell that decodes again after an error, in IFS. -/
def busIfs : State := (bus.modPort 0 fun P => { P with busTest := 1 }).modCell 0 fun C => { C with resynced := true }

theorem witness_listenIfs : busIfs.power.phase = .ready ∧ busIfs.rewakes = busIfs ∧ busIfs.online 0 0 = true ∧
    busIfs.listens 0 = true ∧ busIfs.compat 0 = false ∧ busIfs.arState 0 = 0 ∧ (busIfs.cell 0).stopped = false ∧
    (busIfs.cell 0).resynced = true ∧ (bus.cell 0).resynced = false ∧ (busFlag true).rewakes = busFlag true := by
  decide +kernel

theorem witness_errors : busPass.online 0 0 = true ∧ busPass.counts 0 0 = true ∧ (busPass.cell 0).flag = [] ∧
    (Scan.run' (busPass.hearing 0 0) {} unacked (busPass.sending 0)).verdict =
      some (.error 6 7 (39 + 36 + 24 + 2) false false) ∧ busPass.tec 0 + 0 < 256 ∧ bus.online 0 0 = true ∧
    bus.counts 0 0 = true ∧ (bus.cell 0).flag = [] ∧ (bus.cell 0).attempt = none ∧ bus.tec 0 < 256 ∧
    (Scan.run' (bus.hearing 0 0) {} stuffed []).verdict = some (.error 2 1 5 false false) := by decide +kernel

theorem witness_flags : (busFlag false).online 0 0 = true ∧ (busFlag false).counts 0 0 = true ∧
    ((busFlag false).cell 0).flag ≠ [] ∧ ((busFlag false).cell 0).flagTx = false ∧
    ((busFlag false).cell 0).flagOvl = false ∧ (busFlag false).tec 0 + 8 < 256 ∧ (busFlag true).online 0 0 = true ∧
    (busFlag true).counts 0 0 = true ∧ (busFlag true).tec 0 + 8 < 256 ∧
    (flagScan false false (low 7)).event = some .domAfterFlag ∧ (flagScan false false [true]).event = some .bitInFlag ∧
    (flagScan false false (low 20)).event = some .excessDominant ∧
    (flagScan true false (low 6 ++ high 6 ++ [false])).event = some .delimiter ∧
    (flagScan false false (low 6 ++ high 9 ++ [false])).event = some .ifs ∧
    (flagScan true false (low 6 ++ high 7 ++ [false])).event = some .overload := by decide +kernel

theorem witness_overload : busC.online 0 0 = true ∧ busC.counts 0 0 = true ∧ busC.compat 0 = true ∧
    (busC.cell 0).attempt = none ∧ (flagOn false busC).online 0 0 = true ∧ (flagOn false busC).counts 0 0 = true ∧
    (flagOn false busC).compat 0 = true ∧ ((flagOn false busC).cell 0).flag ≠ [] ∧ (flagOn false busC).tec 0 + 8 < 256 ∧
    (Scan.run' (busC.hearing 0 0) {} (heard can2 7 ++ [false]) []).verdict = some .overload ∧
    (Scan.run' (busC.hearing 0 0) {} (heard can2 6 ++ [false]) []).verdict = none ∧
    (Scan.run' (busC.hearing 0 0) {} (heard can2 6 ++ [false]) []).lastEof = true ∧ (busC.cell 0).rxSof = none := by
  decide +kernel

def busEdge : State := (busAtt.wr (F.CL_STATUS.CONF 0) 2).wr (F.CL_ECNT.TEC 0) 248

theorem witness_busOff : busEdge.online 0 0 = true ∧ busEdge.counts 0 0 = true ∧ (busEdge.cell 0).attempt.isSome = true ∧
    256 ≤ busEdge.tec 0 + 8 ∧ (busEdge.cell 0).flag = [] ∧
    (Scan.run' (busEdge.hearing 0 0) {} [false, true, false] (busEdge.sending 0)).verdict = some (.error 1 1 2 false false) ∧
    ((busFlag true).wr (F.CL_ECNT.TEC 0) 248).online 0 0 = true ∧
    ((busFlag true).wr (F.CL_ECNT.TEC 0) 248).counts 0 0 = true ∧
    256 ≤ ((busFlag true).wr (F.CL_ECNT.TEC 0) 248).tec 0 + 8 := by decide +kernel

/-- Filter 63 of port 0 takes PRI 9 from origin 7 with the given DTYPE. -/
def busFilt (dtype : Nat) : State :=
  putWords (filtKey 0 63 0) [2 ^ 16 + dtype * 2 ^ 14 + (if dtype = 0 then 3 * 2 ^ 7 else 0), 0,
    (9 * 2 ^ 12 + 7) % 2 ^ 18, (9 * 2 ^ 12 + 7) / 2 ^ 18, 0, 0] ((bufs bus).modCell 0 fun C => { C with rxSof := some 900 })

/-- The frame of PRI 9 from origin 7, as a receiver samples it through the sixth bit of EOF. -/
def frame9 : List Bool := heard (Native.sent ⟨9, 0, 7, false, 2, [11, 12]⟩) 6

theorem witness_receiver : (List.range 4).all (fun d => (busFilt d).online 0 0 && ((busFilt d).cell 0).rxSof == some 900 &&
      ((busFilt d).cell 0).attempt.isNone && !((busFilt d).cell 0).stopped && (busFilt d).arState 0 == 0 &&
      (busFilt d).filtDtype 0 63 == d &&
      (let sc := Scan.run' ((busFilt d).hearing 0 0) {} (frame9 ++ [true]) []
       let f := sc.frame ((busFilt d).hearing 0 0)
       sc.valid && hKind f.h1 == 0 && (busFilt d).matchFilter 0 (matchKey false f.h1 f.h2) == some 63)) = true ∧
    (busFilt 0).listens 0 = false ∧ (busFilt 0).frozen 0 0 = false ∧
    (bus.matchFilter 0 (matchKey false (9 * 2 ^ 7) (7 * 2 ^ 8))) = none := by decide +kernel

/-- A packet in the transmit queue of port 0, and the attempt that sends it. -/
def busTq : State :=
  (bus.modQueue (qid 0 2) fun _ => { vis := packet (rec2.map (·.toNat)) ++ packet [1] }).modCell 0 fun C =>
    { C with attempt := some { att2 with frame := ⟨.tq, rec2⟩ } }

theorem witness_transmitter : busAtt.online 0 0 = true ∧ (busAtt.cell 0).attempt = some att2 ∧
    (Scan.run' (busAtt.hearing 0 0) {} (heard att2.bits 7) att2.bits).validSent = true ∧
    0x900 ≤ (busAtt.desc 0 127).dataptr ∧ busAtt.frozen 0 0 = false ∧ busAtt.tec 0 < 512 ∧ busTq.online 0 0 = true ∧
    (busTq.cell 0).attempt = some { att2 with frame := ⟨.tq, rec2⟩ } ∧
    (Scan.run' (busTq.hearing 0 0) {} (heard att2.bits 7) att2.bits).validSent = true := by decide +kernel

/-! ### Network frames -/

/-- A native network frame of origin 7 as a receiver samples it, and a port on which its SOF was seen at 20. -/
def net (pri : Nat) (w : List Nat) : List Bool := heard (Native.sent ⟨pri, 3, 7, false, w.length, w⟩) 6
def onNet (s : State) : State := s.modCell 0 fun C => { C with rxSof := some 20 }

/-- What ReceiverValid asks of a network frame. -/
def hears (s : State) (pri : Nat) (w : List Nat) : Bool :=
  let sc := Scan.run' (s.hearing 0 0) {} (net pri w ++ [true]) []
  let f := sc.frame (s.hearing 0 0)
  decide (s.power.phase = .ready) && decide (s.rewakes = s) && s.online 0 0 && !s.compat 0 && (s.cell 0).rxSof == some 20 &&
    (s.cell 0).attempt.isNone && !(s.cell 0).stopped && s.arState 0 == 0 && sc.valid && hKind f.h1 == 3 && hPri f.h1 == pri &&
    f.payload == w && hOrg f.h2 == 7 && hLen f.h3 == w.length

/-- The words of a beacon of tick 0 with period 50,000, band 3 and window 64; a port that is the tick source. -/
def beaconWords : List Nat := [0, 0, 50000, 3 * 2 ^ 11 + 64 * 2 ^ 4]
def tickPort : State :=
  let s := (bus.wr F.TK_SRC.SRC 3).wr F.TK_STATUS.STATE 3
  onNet ((s.wr F.TK_STATUS.PHASE 3).wr F.TK_HOPDLY.HOPDLY 5)

theorem witness_beaconFrame : hears (onNet bus) 0 beaconWords = true ∧ (onNet bus).sourceNow ≠ 3 ∧
    State.beaconOf 7 20 4 beaconWords = some ⟨20, 0, 50000, 7, 3, 64⟩ ∧ hears tickPort 0 beaconWords = true ∧
    tickPort.sourceNow = 3 ∧ tickPort.rd F.TK_SRC.PORT = 0 ∧ tickPort.rd F.TK_STATUS.STATE = 3 ∧
    tickPort.periodOk 50000 = true ∧ tickPort.rd F.TK_HOPDLY.LOCKLIM = 40 ∧ tickPort.rd F.TK_HOPDLY.HOPDLY = 5 ∧
    tickPort.tick.boundary = 0 ∧ tickPort.tickNo = 0 ∧ hears (onNet bus) 0 [0, 0, 5000, 0] = true ∧
    State.beaconOf 7 20 4 [0, 0, 5000, 0] = none := by decide +kernel

/-- Words of SLEEP_PROPOSE, of the two votes, of SLEEP_COMMIT and of WAKE, all of round 0. -/
def proposeW : List Nat := [2 ^ 12 + 0x3F, 5 * 2 ^ 10]
def voteW (keep : Nat) : List Nat := [2 * 2 ^ 12 + keep * 2 ^ 5]
def commitW : List Nat := [3 * 2 ^ 12 + 0x3F, 9 * 2 ^ 10]
def wakeW (g : Nat) : List Nat := [4 * 2 ^ 12 + g, 2]
def inRound (q : Round) : State := onNet ((bus.wr (F.PW_PSTAT.RGROUP 0) 0x3F).modPort 0 fun P => { P with round := some q })
def leads : State := onNet (((bus.wr (F.PW_PSTAT.COORD 0) 1).wr (F.PW_PSTAT.RGROUP 0) 0x3F).modPort 0 fun P =>
  { P with round := some { coord := 5, window := some 0 } })
def holding : State := (onNet bus).wr (F.PW_PCFG.HOLD 0) 1
def sleepers : State := (onNet bus).wr (F.PW_GSLEEP.GSLEEP 0) (2 ^ 31)

theorem witness_sleepFrames : hears (onNet bus) 0x20 [2 ^ 12] = true ∧ State.netOk [2 ^ 12] = false ∧
    hears (onNet bus) 0x20 proposeW = true ∧ State.netOk proposeW = true ∧ (bus.port 0).round = none ∧
    bus.portState 0 = 0 ∧ bus.isStandby = false ∧ bus.flag (F.PW_PCFG.HOLD 0) = false ∧ (bus.port 0).net = none ∧
    hears holding 0x20 proposeW = true ∧ holding.flag (F.PW_PCFG.HOLD 0) = true ∧ hears leads 0x20 proposeW = true ∧
    (leads.port 0).round.isSome = true ∧ hears leads 0x20 (voteW 1) = true ∧ hears leads 0x20 (voteW 0) = true ∧
    leads.rd (F.PW_PSTAT.ROUND 0) = 0 ∧ leads.rd (F.PW_PSTAT.RGROUP 0) = 0x3F ∧ leads.flag (F.PW_PSTAT.COORD 0) = true ∧
    State.netOk (voteW 1) = true ∧ State.netOk (voteW 0) = true := by decide +kernel

theorem witness_wakeFrames : hears (inRound { coord := 7 }) 0x20 commitW = true ∧ State.netOk commitW = true ∧
    ((inRound { coord := 7 }).port 0).aborted = none ∧ (inRound { coord := 7 }).rd (F.PW_PSTAT.ROUND 0) = 0 ∧
    (inRound { coord := 7 }).rd (F.PW_PSTAT.RGROUP 0) = 0x3F ∧ hears (onNet bus) 0x20 commitW = true ∧
    ((onNet bus).port 0).aborted = none ∧ hears sleepers 0x20 (wakeW 31) = true ∧ State.netOk (wakeW 31) = true ∧
    bitOf (sleepers.rd (F.PW_GSLEEP.GSLEEP 0)) 31 = true ∧ (sleepers.port 0).groupSlept = none ∧
    hears (inRound { coord := 7 }) 0x20 (wakeW 0x3F) = true ∧ State.netOk (wakeW 0x3F) = true := by decide +kernel

/-- The attempt of a network frame of the device, and the state in which it becomes valid. -/
def attNet (w : List Nat) : Attempt :=
  ⟨⟨.network, recordOf false false (0x20 * 2 ^ 7 + 2 ^ 6 + 2 ^ 5) 0 w.length 0 w⟩, 900, Native.sent ⟨0x20, 3, 5, false, w.length, w⟩, false⟩
def sendsNet (s : State) (w : List Nat) : Bool :=
  let s := s.modCell 0 fun C => { C with attempt := some (attNet w), rxSof := none }
  s.online 0 0 && (Scan.run' (s.hearing 0 0) {} (heard (attNet w).bits 7) (attNet w).bits).validSent && !s.compat 0 &&
    s.testMode 0 == 0 && decide (hPri ((attNet w).frame.w 1) ≠ 0) && decide (s.rewakes = s)

theorem witness_ownFrames : sendsNet leads proposeW = true ∧ sendsNet leads commitW = true ∧ (leads.port 0).aborted = none ∧
    leads.origin 0 = 5 ∧ sendsNet sleepers (wakeW 31) = true ∧
    (((attNet commitW).frame.words.drop 6).map (·.toNat)) = commitW := by decide +kernel

def busInt : State := bus.wr (F.CL_STATUS.CONF 0) 0
def busOff (recov seq : Nat) : State :=
  (((bus.wr (F.CL_STATUS.CONF 0) 3).wr (F.CL_STATUS.RECOV 0) recov).wr (F.CL_STATUS.SEQCNT 0) seq).modCell 0 fun C =>
    { C with recDelay := 255 }
def busPex : State := ((busC.wr (F.CL_COMPAT.FDOE 0) 1).wr (F.CL_COMPAT.PXHD 0) 0).modCell 0 fun C => { C with rxSof := some 900 }
def busStop : State := bus.modCell 0 fun C => { C with stopped := true }

/-- An FD frame with identifier 0x123 as far as a recessive res bit. -/
def fdRes : List Bool := (Compat.sent (0x123 * 2 ^ 7) (2 ^ 5) 0 []).take 15 ++ [true]

theorem witness_confinement : busInt.bussed 0 0 = true ∧ busInt.conf 0 = 0 ∧ (busOff 3 0).bussed 0 0 = true ∧
    (busOff 3 0).conf 0 = 3 ∧ (busOff 3 0).rd (F.CL_STATUS.RECOV 0) = 3 ∧ (busOff 3 0).rd (F.CL_STATUS.SEQCNT 0) + 1 < 64 ∧
    (busOff 3 63).bussed 0 0 = true ∧ (busOff 3 63).rd (F.CL_STATUS.SEQCNT 0) + 1 = 64 ∧ (busOff 3 63).compat 0 = false ∧
    (busOff 2 0).bussed 0 0 = true ∧ (busOff 2 0).rd (F.CL_STATUS.RECOV 0) = 2 ∧
    (busOff 2 0).rd (F.CL_ERRCTRL.DELAY ((busOff 2 0).cfg 0)) ≤ ((busOff 2 0).cell 0).recDelay ∧ busPex.bussed 0 0 = true ∧
    busPex.conf 0 = 1 ∧ busPex.compat 0 = true ∧ (busPex.cell 0).rxSof.isSome = true ∧
    (busPex.cell 0).attempt = none ∧ (busPex.cell 0).stopped = false ∧ busPex.arState 0 ≠ 1 ∧
    (Scan.run' (busPex.hearing 0 0) {} fdRes []).verdict = some (.exception 16) ∧ busStop.bussed 0 0 = true ∧ (busStop.cell 0).stopped = true ∧
    busStop.rd (F.CL_ERRCAP.TYPE 0) ≠ 8 := by decide +kernel

/-- A beacon candidate; a cell whose last valid beacon was sent at 900 by origin 7, with its window open. -/
def busCand : State := (bus.wr (F.CL_BEACON.CAND 0) 1).wr (F.CL_BEACON.BCN_OFS 0) 100
def beacon7 : Beacon := ⟨900, 0, 50000, 7, 3, 64⟩
def busBcn : State :=
  ((bus.modCell 0 fun C => { C with lastBeacon := some beacon7, windowEnd := 25900 }).wr (F.CL_BCNSTAT.MASTER 0) 7).wr
    (F.CL_BCNSTAT.WINOPEN 0) 1

theorem witness_beacons : busCand.bussed 0 0 = true ∧ busCand.compat 0 = false ∧
    busCand.flag (F.CL_BEACON.CAND (State.home 0)) = true ∧ busCand.listens 0 = false ∧ busCand.testMode 0 = 0 ∧
    busCand.origin 0 ≠ 0x3FF ∧ (busCand.cell 0).beaconDone = false ∧
    busCand.tick.boundary + busCand.rd (F.CL_BEACON.BCN_OFS (State.home 0)) < busCand.nextBoundary ∧
    busBcn.bussed 0 0 = true ∧ busBcn.compat 0 = false ∧ (busBcn.cell 0).lastBeacon = some beacon7 ∧
    (busBcn.cell 0).beaconMisses = 0 ∧ busBcn.flag (F.CL_BCNSTAT.WINOPEN 0) = true := by decide +kernel

/-! ### Witnesses: stores, fetches and the rate search -/

def busDue : State := (bufs bus).modCell 0 fun C => { C with due := [⟨.buffer 3, rec2⟩] }
def busStore : State := (bufs bus).modCell 0 fun C => { C with store := some ⟨3, false, 32760, rec2, false⟩ }

theorem witness_store : busDue.power.phase = .ready ∧ busDue.servedPort 0 = some 0 ∧ (busDue.cell 0).store = none ∧
    (busDue.cell 0).due = [⟨.buffer 3, rec2⟩] ∧ busDue.storeHeld 0 ⟨.buffer 3, rec2⟩ = false ∧ (busDue.desc 0 3).isRx = true ∧
    busDue.suspended 0 3 = false ∧ State.plenOf (rec2.headD 0).toNat ≤ (busDue.desc 0 3).capacity ∧
    busDue.held 0 3 = false ∧ (busStore.cell 0).store = some ⟨3, false, 32760, rec2, false⟩ ∧
    32760 + rec2.length ≤ 32768 := by decide +kernel

/-- RQ0 of port 0 enabled with a push due, and disabled. -/
def busPush (en : Nat) : State := (bus.wr (F.QCFG.EN 0) en).modCell 0 fun C => { C with due := [⟨.queue 0, rec2⟩] }

/-- Buffer 127 pending with its record in block RAM, and its fetch under way. -/
def busPend : State := ((bufs bus).modPort 0 fun P => { P with pend := [127] }).wrRams 0 (4 * 0x1FFE) rec2
def busFetch : State := busPend.modCell 0 fun C => { C with fetch := some (.buffer 127) }

/-- Receive buffer 3 under HOLD, without and with a shadow copy; a record of more words than its buffer holds. -/
def busHold (shadow : Nat) (s1 : Nat) : State :=
  (((putWords (descKey 0 3 0) [2 ^ 16 + shadow * 2 ^ 12, 0, 0, 2 * 2 ^ 13 + 0xA00] busDue).setS0 0 3 15 15 s1).wrS1 0 3 (2 ^ 17))
def busLong : State := busDue.modCell 0 fun C => { C with due := [⟨.buffer 3, recordOf false false (9 * 2 ^ 7) 0 3 0 [1, 2, 3]⟩] }
def busShut : State := (busHold 1 0).modCell 0 fun C => { C with due := [], store := some ⟨3, true, 32760, rec2, false⟩ }

/-- Cell 3 of block 0 has a store due that port A serves before cell 5's. -/
def busTurns : State :=
  ((putWords (descKey 3 3 0) [2 ^ 16, 0, 0, 2 * 2 ^ 13 + 0xA80] ((bus.wr (F.PW_PSTAT.STATE 3) 0).wr (F.CL_STATUS.CONF 3) 1)).modCell 3
    fun C => { C with due := [⟨.buffer 3, rec2⟩] }).modCell 5 fun C => { C with due := [⟨.buffer 4, rec2⟩] }

/-- Port A's rotation serves the cells of the block one after another (R23); with one cell that has work, its turn
changes nothing before it. -/
theorem witness_rotation : busDue.portATurn 0 = busDue ∧ (busHold 0 0).portATurn 0 = busHold 0 0 ∧
    busLong.portATurn 0 = busLong ∧ busPend.portATurn 0 = busPend ∧ (busPush 1).portATurn 0 = busPush 1 ∧
    busPend.rewakes = busPend ∧ busFetch.rewakes = busFetch ∧ busFetch.portATurn 0 = busFetch ∧
    busTurns.rotationBefore 5 = [0, 1, 2, 3, 4] ∧ (((busTurns.portATurn 5).cell 3).due = []) ∧
    ((busTurns.portATurn 5).cell 5).due ≠ [] := by decide +kernel

theorem witness_holdStores : (busHold 0 0).held 0 3 = true ∧ ((busHold 0 0).desc 0 3).shadow = false ∧
    ((busHold 0 0).desc 0 3).isRx = true ∧ (busHold 0 0).storeHeld 0 ⟨.buffer 3, rec2⟩ = false ∧
    (busHold 1 0).held 0 3 = true ∧ ((busHold 1 0).desc 0 3).shadow = true ∧ ((busHold 1 0).desc 0 3).isRx = true ∧
    (busHold 1 0).shnew 0 3 = false ∧ (busHold 1 1).shnew 0 3 = true ∧ ((busHold 1 1).cell 0).due = [⟨.buffer 3, rec2⟩] ∧
    ((busLong.desc 0 3).capacity < State.plenOf ((recordOf false false (9 * 2 ^ 7) 0 3 0 [1, 2, 3]).headD 0).toNat) ∧
    0x6040000 + 3 ∉ busLong.once ∧ (busShut.cell 0).store = some ⟨3, true, 32760, rec2, false⟩ ∧ busShut.held 0 3 = true ∧
    ({ busShut with blockRam := bus.blockRam } : State).held 0 3 = false := by decide +kernel

/-- The close of a push, whose packet was rewound meanwhile or not. -/
def busClosing (rewound : Bool) : State :=
  ((busPush 1).modCell 0 fun C => { C with due := [], pushing := some (0, 12) }).modQueue 0 fun _ =>
    if rewound then { discarding := true } else { opened := rec2.dropLast.map (⟨·, false, none⟩) }

theorem witness_closes : ((busClosing true).cell 0).pushing = some (0, 12) ∧ (busClosing true).power.phase = .ready ∧
    ((busClosing true).portATurn 0).queue 0 = { discarding := true } ∧ ((busClosing false).cell 0).pushing = some (0, 12) ∧
    (((busClosing false).portATurn 0).queue 0).discarding = false ∧ isBulk 0 = false ∧
    (busPend.fetchDue 0 0).isSome = true ∧ (busPend.portATurn 0).fetchDue 0 0 = some (.buffer 127) := by decide +kernel

theorem witness_pushFetch : (busPush 1).bussed 0 0 = true ∧ ((busPush 1).cell 0).pushing = none ∧ ((busPush 1).cell 0).due = [⟨.queue 0, rec2⟩] ∧ rec2 ≠ [] ∧
    rec2.length ≤ (busPush 1).credit 0 ∧ (busPush 0).bussed 0 0 = true ∧ (busPush 0).credit 0 < rec2.length ∧
    busPend.bussed 0 0 = true ∧ busPend.listens 0 = false ∧ busPend.firstCandidate 0 0 = some (.buffer 127) ∧
    (busPend.cell 0).fetch = none ∧ (busPend.cell 0).ready = none ∧ busPend.held 0 127 = false ∧
    busPend.xbusy 0 127 = false ∧ busFetch.bussed 0 0 = true ∧ (busFetch.cell 0).fetch = some (.buffer 127) ∧
    127 ∈ (busFetch.port 0).pend ∧ busFetch.suspended 0 127 = false ∧
    busFetch.recordOk 0 (busFetch.desc 0 127).capacity ((busFetch.ramList 0 (busFetch.txRecord 0 127)
      (6 + min (busFetch.desc 0 127).capacity 32)).map (·.toNat)) = true := by decide +kernel

/-- A cell in MEASURE with candidates 0 and 15 valid, one in TRY at the end of its dwell, one whose last pass is over,
and a listening cell. -/
def busRate : State :=
  ((((((bus.wr (F.CL_ARSTAT.STATE 0) 1).wr (F.CL_ARSTAT.PASS 0) 1).wr (F.CL_ARCANDN.VALID 0 0) 1).wr
    (F.CL_ARCANDN.VALID 0 15) 1).wr (F.CL_ARCTRL.DWELL 0) 2)).modPort 0 fun P => { P with busTest := 1 }
def busTry : State := (busRate.wr (F.CL_ARSTAT.STATE 0) 2).modCell 0 fun C => { C with arDwell := 2, arLeft := [15] }
def busLast : State := (busRate.wr (F.CL_ARCTRL.PASSES 0) 1).modCell 0 fun C => { C with arDwell := 2 }
def busListen : State := (bus.modPort 0 fun P => { P with busTest := 1 }).wr (F.PW_PSTAT.STATE 0) 1

theorem witness_counted : ((busOff 3 0).cell 0).countAt = none ∧ ((busOff 2 0).cell 0).countAt = none ∧
    (busOff 3 0).counted 0 = busOff 3 0 ∧
    (((busOff 2 0).modCell 0 fun C => { C with countAt := some (busOff 2 0).clk }).counted 0).rd (F.CL_STATUS.RECOV 0) = 3 ∧
    (busOff 3 0).rewakes = busOff 3 0 ∧ busPex.rewakes = busPex ∧ busCand.rewakes = busCand := by decide +kernel

/-- No candidate is eligible, with passes left and without; the last candidate's dwell is over with passes left. -/
def busNone (passes : Nat) : State :=
  ((((bus.wr (F.CL_ARSTAT.STATE 0) 1).wr (F.CL_ARSTAT.PASS 0) 1).wr (F.CL_ARCTRL.PASSES 0) passes).wr (F.CL_ARCTRL.DWELL 0) 2).modPort 0
    fun P => { P with busTest := 1 }
def busEnd (passes : Nat) : State := ((busNone passes).wr (F.CL_ARSTAT.STATE 0) 2).modCell 0 fun C => { C with arDwell := 2 }

theorem witness_ratePasses : (busNone 0).rateEligible 0 20000 = [] ∧ (busNone 1).rateEligible 0 20000 = [] ∧
    (busNone 2).rd (F.CL_ARCTRL.PASSES ((busNone 2).cfg 0)) = 2 ∧ (busNone 2).rd (F.CL_ARSTAT.PASS 0) = 1 ∧
    (busNone 0).rd (F.CL_ARCTRL.GLITCH ((busNone 0).cfg 0)) ≤ 20000 ∧ (busNone 0).arState 0 = 1 ∧
    (busEnd 2).arState 0 = 2 ∧ ((busEnd 2).cell 0).arLeft = [] ∧ (busEnd 1).arState 0 = 2 ∧
    (busEnd 2).rd (F.CL_ARCTRL.DWELL ((busEnd 2).cfg 0)) ≤ ((busEnd 2).cell 0).arDwell ∧
    ((busListen.begun cmdPortAutorate (pkt 1 [tgt 0 0])).rewakes).listens 0 = true ∧
    ((busListen.begun cmdPortAutorate (pkt 1 [tgt 0 0])).rewakes).servingCell 0 = 0 ∧
    ((busListen.begun cmdPortAutorate (pkt 1 [tgt 0 0])).rewakes).portState 0 < 2 ∧
    ((busListen.begun cmdPortAutorate (pkt 1 [tgt 0 0])).rewakes).searching 0 = false ∧
    ((busTry.begun cmdPortAutorate (pkt 1 [tgt 0 1])).rewakes).searching 0 = true ∧
    ((busTry.begun cmdPortAutorate (pkt 1 [tgt 0 1])).rewakes).servingCell 0 = 0 := by decide +kernel

theorem witness_rate : busRate.arState 0 = 1 ∧ busRate.rd (F.CL_ARCTRL.GLITCH (busRate.cfg 0)) ≤ (20000#16).toNat ∧
    busRate.rateEligible 0 20000 = [0, 15] ∧ busTry.arState 0 = 2 ∧
    busTry.rd (F.CL_ARCTRL.DWELL (busTry.cfg 0)) ≤ (busTry.cell 0).arDwell ∧ (busTry.cell 0).arLeft = [15] ∧
    busLast.arState 0 = 1 ∧ busLast.rd (F.CL_ARCTRL.DWELL (busLast.cfg 0)) ≤ (busLast.cell 0).arDwell ∧
    busLast.rd (F.CL_ARCTRL.PASSES (busLast.cfg 0)) ≠ 0 ∧
    busLast.rd (F.CL_ARCTRL.PASSES (busLast.cfg 0)) ≤ busLast.rd (F.CL_ARSTAT.PASS 0) ∧
    busListen.starts cmdPortAutorate (pkt 1 [tgt 0 0]) = true ∧ busListen.servingCell 0 = 0 ∧ busListen.testMode 0 = 1 ∧
    busListen.portState 0 < 2 ∧ busListen.searching 0 = false ∧ busTry.starts cmdPortAutorate (pkt 1 [tgt 0 1]) = true ∧
    bitOf (Operand.item (Operand.args (pkt 1 [tgt 0 1]))) 0 = true ∧ busTry.searching 0 = true := by decide +kernel

/-! ### Witnesses: the tick, the gateway and events -/

/-- A device in a phase of an open tick. -/
def inPhase (ph : Nat) : State := (dev.wr F.TK_STATUS.PHASE ph).modTick fun u => { u with time := 1000 }

theorem witness_boundary : devLocked.power.phase = .ready ∧ devLocked.engine.commit = some ⟨5, 0, 0, []⟩ ∧
    devNext.power.phase = .ready ∧ devNext.engine.commit = some ⟨5, 0, 0, []⟩ ∧ devNext.engine.next.isSome = true := by
  decide +kernel

/-- MAP with a lane whose last knot issued in clk 900. -/
def mapDone : State := (inPhase 1).modGw fun g => { g with lastIssue := some 900, mapStart := 500 }

theorem witness_phases : (inPhase 0).phase = 0 ∧ (inPhase 0).captureLeft = [] ∧ (inPhase 0).areasLeft = [] ∧
    (inPhase 0).pair.listClose = true ∧ (inPhase 0).inPhase = true ∧ (inPhase 0).tick.mapSkipped = false ∧ mapDone.phase = 1 ∧
    ((List.range 8).any fun l => (mapDone.laneDue l).isSome) = false ∧ (mapDone.advanceClk 940).boundaryHere = false ∧ (inPhase 2).phase = 2 ∧
    (inPhase 2).emitLeft = [] ∧ (inPhase 2).emitOpen = [] ∧ (inPhase 2).inPhase = true := by decide +kernel

theorem witness_deadlines : (inPhase 0).tick.missCap = false ∧
    (inPhase 0).tick.boundary + (inPhase 0).deadline .capture < (inPhase 0).nextBoundary ∧ (inPhase 1).tick.missMap = false ∧
    (inPhase 1).tick.boundary + (inPhase 1).deadline .map < (inPhase 1).nextBoundary ∧
    (inPhase 1).rd F.TK_REACT.CHIP_MAP = 1 ∧ (inPhase 2).tick.missEmit = false ∧
    (inPhase 2).tick.boundary + (inPhase 2).deadline .emit < (inPhase 2).nextBoundary := by decide +kernel

/-- Receive buffer 3 of port 0 is listed with a record of two words; transmit buffer 4 is due for its EMIT transfer, open,
and due for its release. -/
def caps : State :=
  ((putWords (descKey 0 3 0) [2 ^ 16 + 2 ^ 15 + 4, 0, 0xFFFC, 2 * 2 ^ 13 + 0x1FFE] (inPhase 0)).wrRams 0 (4 * 0x1FFE)
    (recordOf false false (9 * 2 ^ 7) (7 * 2 ^ 8) 2 900 [11, 12])).modPort 0 fun P => { P with listed := [3] }
def emits : State :=
  ((putWords (descKey 0 4 0) [2 * 2 ^ 16 + 2 ^ 15 + 2, 10, 100, 2 * 2 ^ 13 + 0x1FFE] (inPhase 2)).wr (F.PW_PSTAT.STATE 0) 0).modPort 0
    fun P => { P with emitDue := [4] }
def emitting : State := (emits.wrEmit 100 77).modPort 0 fun P => { P with emitDue := [], xferOpen := some ⟨4, 4 * 0x1FFE, 100, 2⟩ }
def releasing : State :=
  ((putWords (descKey 0 4 0) [2 * 2 ^ 16 + 2 ^ 11, 3000, 0, 2 * 2 ^ 13 + 0x900] (inPhase 3)).wr (F.PW_PSTAT.STATE 0) 0).modPort 0
    fun P => { P with relDue := [4] }

theorem witness_transfers : caps.phase = 0 ∧ 3 ∈ (caps.port 0).listed ∧
    (caps.captureLeft.any fun i => i.1 / 8 == 0 && caps.storeWaits i.1 i.2) = false ∧ emits.phase = 2 ∧
    4 ∈ (emits.port 0).emitDue ∧ (emits.port 0).xferOpen = none ∧ emits.busy 0 4 = false ∧ emits.inPhase = true ∧
    (emitting.port 0).xferOpen = some ⟨4, emits.txRecord 0 4, (emits.desc 0 4).img, (emits.desc 0 4).xlen⟩ ∧
    emitting.cbufOf 0 4 = none ∧ 4 * 0x1FFE + 6 + 2 ≤ 32768 ∧ 4 ∈ (releasing.port 0).relDue ∧
    releasing.tick.boundary + 16 * (releasing.desc 0 4).relofs < releasing.nextBoundary ∧ (releasing.desc 0 4).xfer = false ∧
    (releasing.desc 0 4).isTx = true ∧ releasing.asleep 0 = false ∧ releasing.suspended 0 4 = false := by decide +kernel

/-- Buffer 5 of port 1 is listed too, with a store that waits. -/
def caps2 : State :=
  let s := (caps.wr (F.PW_PSTAT.STATE 1) 0).modPort 1 fun P => { P with listed := [5] }
  s.modCell 1 fun C => { C with due := [⟨.buffer 5, rec2⟩] }

/-- Binding 2047 of a node with profile `prof` on port 0, its command buffer 4, whose EMIT transfer is open; the
actions of its first three channels are 3, 4 and 5. -/
def composing (prof : Nat) : State :=
  let s := putWords (bindKey 2047 0) [2 ^ 17 + prof * 2 ^ 14 + 3, 7 * 2 ^ 8 + 9, 2 ^ 17 + 0x100, 4 * 2 ^ 7] emits
  (s.modBind 2047 fun B => { B with actions := [(0, 3), (1, 4), (2, 5)] }).modPort 0 fun P =>
    { P with emitDue := [], xferOpen := some ⟨4, 4 * 0x1F00, 100, 2⟩ }

theorem witness_captureOrder : caps2.phase = 0 ∧ 3 ∈ (caps2.port 0).listed ∧ (1, 5) ∈ caps2.captureLeft ∧
    caps2.storeWaits 1 5 = true ∧ caps2.storeWaits 0 3 = false := by decide +kernel

theorem witness_compose : ([2, 4].all fun prof => (composing prof).cbufOf 0 4 == some 2047 &&
      ((composing prof).port 0).xferOpen == some ⟨4, 4 * 0x1F00, 100, 2⟩ && decide (0x2400 ≤ 4 * 0x1F00) &&
      decide (4 * 0x1F00 + 6 + 11 ≤ 32768)) = true ∧ ((composing 2).binding 2047).isDO = true ∧
    ((composing 4).binding 2047).isAIO = true ∧ ((composing 4).binding 2047).isDO = false ∧
    ((composing 2).bind 2047).actions = [(0, 3), (1, 4), (2, 5)] := by decide +kernel

/-- A device whose source is TICK_IN (1) or the tether (2), in a state of Table 2-6. -/
def src (from' st : Nat) : State :=
  (((((inPhase 3).wr F.TK_SRC.SRC from').wr F.TK_STATUS.STATE st).wr F.TK_HOPDLY.HOPDLY 5).wr F.SP_PSTAT.LINK 2).wr F.SP_TDLY.DELAY 9

/-- A tick word for tick `n` with its boundary at `b`. -/
def word (n b : Nat) : TickWord :=
  ⟨400, true, BitVec.ofNat 36 n, BitVec.ofNat 54 b, 50000, 12, BitVec.ofNat 8 (State.tickChk n b 50000 12)⟩

theorem witness_references : (src 1 3).sourceNow = 1 ∧ (src 1 3).rd F.TK_STATUS.STATE = 3 ∧
    (word 0 0).chk.toNat = State.tickChk (word 0 0).tickNo.toNat (word 0 0).btime.toNat (word 0 0).period.toNat
      (word 0 0).flags.toNat ∧
    (src 1 3).periodOk 50000 = true ∧ (src 1 3).rd F.TK_HOPDLY.LOCKLIM = 40 ∧ (src 1 3).tickNo = 0 ∧
    384 ≤ (word 0 0).gap.toNat ∧ (word 0 0).gap.toNat ≤ 416 ∧ ¬ 384 ≤ { word 0 0 with gap := 383 }.gap.toNat ∧ (src 1 1).sourceNow = 1 ∧ (src 1 1).rd F.TK_STATUS.STATE = 1 ∧ (src 1 1).periodOk 50000 = true ∧
    (src 1 1).flag F.TK_CTRL.STEP_EN = true ∧
    (src 1 1).tick.boundary ≤ (src 1 1).tick.time ∧ (word 5 0).chk.toNat ≠ (word 6 0).chk.toNat ∧ (src 2 3).sourceNow = 2 ∧
    (src 2 3).rd F.SP_PSTAT.LINK = 2 ∧ (src 2 3).rd F.TK_STATUS.STATE = 3 ∧ (src 2 3).rd F.SP_TDLY.DELAY = 9 := by decide +kernel

/-- A device in HOLDOVER for 16 ticks, with another source to fall back to. -/
def held16 : State := ((src 1 4).wr F.TK_SRC.SRC2 3).modTick fun u => { u with holdTicks := 16 }

theorem witness_sourceLoss : (src 1 2).sourceNow = 1 ∧ (src 1 2).rd F.TK_STATUS.STATE ≠ 0 ∧ (src 1 2).rd F.TK_STATUS.STATE = 2 ∧
    held16.rd F.TK_STATUS.STATE = 4 ∧ held16.rd F.TK_SRC.HOLD_EXP ≠ 15 ∧ 2 ^ held16.rd F.TK_SRC.HOLD_EXP ≤ held16.tick.holdTicks ∧
    held16.rd F.TK_SRC.SRC2 ≠ held16.rd F.TK_SRC.SRC ∧ held16.flag F.TK_STATUS.FALLBACK = false := by decide +kernel

/-- MAP in which lane 3 runs list 2 at a knot: a COPY from captured word 7 to word 9, then an invalid one. -/
def maps (k : List Nat) : State :=
  (((List.range 4).zip k).foldl (fun s e => s.wrKnot 100 e.1 (wordOf e.2)) (((inPhase 1).wrCap 7 0x1234).wrScale 5 0 3)).modGw
    fun g => { g with mapStart := 500, lanes := [(3, { cur := some (2, 100, 4), clk := 600 })] }

theorem witness_knotIssue : (maps [4 * 2 ^ 15, 7, 9, 200]).power.phase = .ready ∧ (maps [4 * 2 ^ 15, 7, 9, 200]).phase = 1 ∧
    State.Lane.due ((maps [4 * 2 ^ 15, 7, 9, 200]).lane 3) = some ((2, 100, 4), 600) ∧
    ((maps [4 * 2 ^ 15, 7, 9, 200]).advanceClk 600).boundaryHere = false ∧
    ((List.range 8).any fun o => match (maps [4 * 2 ^ 15, 7, 9, 200]).laneDue o with | some u => u < 600 | none => false) = false ∧
    (KnotWords.mk (4 * 2 ^ 15) 7 9 200).valid = true ∧ (KnotWords.mk (7 * 2 ^ 15) 0 0 0).valid = false ∧
    State.Lane.due ((maps [7 * 2 ^ 15, 0, 0, 2 ^ 17]).lane 3) = some ((2, 100, 4), 600) := by decide +kernel

theorem witness_knotOps : (KnotWords.mk (3 * 2 ^ 15 + 5) 7 9 0).valid = true ∧ (KnotWords.mk (3 * 2 ^ 15 + 5) 7 9 0).op = 3 ∧
    (KnotWords.mk (6 * 2 ^ 15) 7 9 0).valid = true ∧ (KnotWords.mk (6 * 2 ^ 15) 7 9 0).op = 6 ∧
    (KnotWords.mk 0 0 0 0).op = 0 ∧ (KnotWords.mk (4 * 2 ^ 15) 7 9 0).op = 4 ∧
    (KnotWords.mk (4 * 2 ^ 15) 7 9 0).valid = true ∧ (KnotWords.mk (2 ^ 15) 7 9 0).op = 1 ∧
    (KnotWords.mk (2 ^ 15) 7 9 0).valid = true ∧ (KnotWords.mk (2 * 2 ^ 15) 7 9 0).op = 2 ∧
    (KnotWords.mk (2 * 2 ^ 15) 7 9 0).valid = true ∧ (KnotWords.mk (5 * 2 ^ 15 + 5) 7 9 0).op = 5 ∧
    (KnotWords.mk (5 * 2 ^ 15 + 5) 7 9 0).valid = true ∧ (KnotWords.mk 0x0BC38 0x0400 0x2003 0x1101).width = 15 ∧
    (KnotWords.mk (2 ^ 15) 7 9 0).width = 0 := by decide +kernel

/-- Two records of one clk are posted; 256 records are posted while the event queue has no credit; records were lost. -/
def posted : State := (dev.post 0x07 0x03 5 [1, 2]).post 0x04 0x08 0 [3, 4]
def postedFull : State := posted.wr (F.QCTL.CEIL qEvent) 12
def lostSome : State := { dev with merger := { lost := 3, firstLost := 900, evseq := 15 } }

theorem witness_events : posted.merger.lost = 0 ∧ ((firstRecord posted.merger.posted).map (·.1.cls)) = some 0x04 ∧
    2 + 3 + 8 ≤ posted.credit qEvent ∧ postedFull.merger.lost = 0 ∧ postedFull.credit qEvent < 2 + 3 + 8 ∧
    lostSome.merger.lost ≠ 0 ∧ 5 ≤ lostSome.credit qEvent := by decide +kernel

/-! ### Witnesses: sleep, power, spares -/

/-- A device whose port 0 sleeps in a state of Table 12-1 with every wake source enabled. -/
def sleeps (st : Nat) : State :=
  ((((((((dev.wr (F.PW_PSTAT.STATE 0) st).wr (F.PW_WCFG.WLEN 0) 1).wr (F.PW_WCFG.BPEN 0) 1).wr (F.PW_WCFG.SWEN 0) 1).wr
    (F.PW_WTIMER.TKEN 0) 1).wr (F.PW_WTIMER.TMEN 0) 1).wr (F.PW_WCFG.PWAKE 0) 1).wr (F.PW_SWFID.EN 0 3) 1).modPort 0 fun P =>
      { P with umbra := some (0, 0), sleptAt := 400 }

/-- The same, put to sleep by a round. -/
def sleepsRound (st : Nat) : State := ((sleeps st).modPort 0 fun P => { P with roundSlept := true }).advanceClk 500

/-- The dominant, recessive and dominant phases of a bus pattern. -/
def levels : List (Bool × BitVec 32) := [(false, 400), (true, 400), (false, 400)]

/-- The frame of PRI 9 from origin 7 as the umbra decoder samples it. -/
def umbraBits : Scan := Scan.run' ⟨false, false, false, false⟩ {} frame9 []

theorem witness_sleepCommands : bus.isStandby = false ∧ bus.starts cmdNetSleep (pkt 1 [tgt 0 0x3F]) = true ∧
    groupArg (Operand.args (pkt 1 [tgt 0 0x3F])) = 0x3F ∧ bus.compat 0 = false ∧ bus.portState 0 = 0 ∧
    (bus.port 0).round = none ∧ bus.flag (F.PW_PCFG.HOLD 0) = false ∧ (bus.port 0).net = none ∧
    (bus.wr (F.PW_GRP.GEN 0 31) 1).starts cmdNetSleep (pkt 1 [tgt 0 31]) = true ∧
    (bus.wr (F.PW_GRP.GEN 0 31) 1).flag (F.PW_GRP.GEN 0 31) = true ∧
    busC.starts cmdNetSleep (pkt 1 [tgt 0 0x3F]) = true ∧ busC.compat 0 = true ∧ busC.asleep 0 = false ∧
    (sleeps 2).starts cmdNetWake (pkt 1 [tgt 0 0x3F]) = true ∧ (sleeps 2).asleep 0 = true ∧ ((sleeps 2).port 0).waking = none ∧
    ((sleeps 2).port 0).roundSlept = false ∧ ((sleepsRound 2).port 0).roundSlept = true ∧
    ((sleepsRound 2).port 0).sleptAt ≠ (sleepsRound 2).clk ∧ bus.starts cmdNetWake (pkt 1 [tgt 0 4]) = true := by decide +kernel

/-- The state in which the effect of a sleep command comes. -/
def sleepU (s : State) (p : Packet) : State := (s.begun cmdNetSleep p).rewakes
def wakeU (s : State) (p : Packet) : State := (s.begun cmdNetWake p).rewakes
def whole : Packet := pkt 1 [tgt 0 0x3F]
def inWhole (q : Round) : State := (bus.wr (F.PW_PSTAT.RGROUP 0) 0x3F).modPort 0 fun P => { P with round := some q }
def entering : State := (sleeps 2).modPort 0 fun P => { P with roundSlept := true, sleptAt := (sleeps 2).clk }

theorem witness_sleepU : (sleepU bus whole).isStandby = false ∧ (sleepU bus whole).compat 0 = false ∧
    (sleepU bus whole).portState 0 = 0 ∧ ((sleepU bus whole).port 0).round = none ∧
    (sleepU bus whole).flag (F.PW_PCFG.HOLD 0) = false ∧ ((sleepU bus whole).port 0).net = none ∧
    (sleepU (bus.wr (F.PW_GRP.GEN 0 31) 1) (pkt 1 [tgt 0 31])).flag (F.PW_GRP.GEN 0 31) = true ∧
    (sleepU busC whole).compat 0 = true ∧ (sleepU busC whole).asleep 0 = false ∧ (sleepU busC whole).isStandby = false := by
  decide +kernel

theorem witness_wakeU : (wakeU (sleeps 2) whole).isStandby = false ∧ (wakeU (sleeps 2) whole).asleep 0 = true ∧
    ((wakeU (sleeps 2) whole).port 0).waking = none ∧ ((wakeU (sleeps 2) whole).port 0).roundSlept = false ∧
    entering.starts cmdNetWake whole = true ∧ ((wakeU entering whole).port 0).roundSlept = true ∧
    (wakeU entering whole).asleep 0 = true ∧ ((wakeU entering whole).port 0).sleptAt = (wakeU entering whole).clk ∧
    ((wakeU entering whole).port 0).rewake = none ∧ ((wakeU entering whole).port 0).waking = none ∧
    (wakeU bus (pkt 1 [tgt 0 4])).portState 0 = 0 ∧ ((wakeU bus (pkt 1 [tgt 0 4])).port 0).waking = none ∧
    (wakeU bus (pkt 1 [tgt 0 4])).compat 0 = false ∧ ((wakeU bus (pkt 1 [tgt 0 4])).port 0).net = none := by decide +kernel

theorem witness_wakeWhole : (inWhole { coord := 5 }).starts cmdNetWake whole = true ∧
    ((wakeU (inWhole { coord := 5 }) whole).port 0).round = some { coord := 5 } ∧
    (wakeU (inWhole { coord := 5 }) whole).portState 0 = 0 ∧ ((wakeU (inWhole { coord := 5 }) whole).port 0).waking = none ∧
    (inWhole { coord := 5, sdly := some 3 }).starts cmdNetWake whole = true ∧
    ((wakeU (inWhole { coord := 5, sdly := some 3 }) whole).port 0).round = some { coord := 5, sdly := some 3 } ∧
    ((wakeU (inWhole { coord := 5, sdly := some 3 }) whole).port 0).held = none ∧ bus.starts cmdNetWake whole = true ∧
    ((wakeU bus whole).port 0).round = none ∧ ((wakeU bus whole).port 0).net = none ∧
    bitOf ((wakeU (bus.wr (F.PW_PCFG.WACT 0) 0) whole).rd (F.PW_PCFG.WACT 0)) 0 = false ∧
    (bus.wr (F.PW_PCFG.WACT 0) 1).starts cmdNetWake whole = true ∧
    bitOf ((wakeU (bus.wr (F.PW_PCFG.WACT 0) 1) whole).rd (F.PW_PCFG.WACT 0)) 0 = true := by decide +kernel

/-- The clk of a wake's decision, of source `src`. -/
def deciding (src : Nat) : State :=
  ((bus.wr (F.PW_WCFG.WLEN 0) 1).wr (F.PW_WCFG.PWAKE 0) 1).modPort 0 fun P =>
    { P with waking := some ⟨src, bus.clk + 1, bus.clk, 0, 2⟩ }

/-- A wake held at a sleep entry, of the whole port or of group 31, decided in `k`. -/
def rewaking (group k : Nat) : State :=
  ((sleeps 2).wr (F.PW_GSLEEP.GSLEEP 0) (2 ^ 31)).modPort 0 fun P => { P with rewake := some ⟨k, 7, group, ⟨4, 0, 0x3FF⟩⟩ }

theorem witness_decisions : (sleeps 3).rewakes = sleeps 3 ∧ (sleeps 2).rewakes = sleeps 2 ∧ (sleepsRound 3).rewakes = sleepsRound 3 ∧
    (deciding 7).rewakes = deciding 7 ∧ (deciding 7).asleep 0 = false ∧ ((deciding 7).port 0).waking.isSome = true ∧
    (((deciding 7).port 0).waking.map (·.at')) = some (deciding 7).clk ∧ ((deciding 7).port 0).wakeDrive = none ∧
    ((deciding 7).port 0).wakeOff = none ∧ (deciding 7).flag (F.PW_WCFG.WLEN 0) = true ∧
    (deciding 7).flag (F.PW_WCFG.PWAKE 0) = true ∧ (deciding 1).rewakes = deciding 1 ∧
    (((deciding 1).port 0).waking.map (·.src)) = some 1 ∧ (((deciding 6).port 0).waking.map (·.src)) = some 6 := by
  decide +kernel

theorem witness_rewaking : (rewaking 0x3F 1).clk = 0 ∧ ((rewaking 0x3F 1).port 0).rewake = some ⟨1, 7, 0x3F, ⟨4, 0, 0x3FF⟩⟩ ∧
    ((rewaking 0x3F 0).port 0).rewake = some ⟨0, 7, 0x3F, ⟨4, 0, 0x3FF⟩⟩ ∧ (rewaking 0x3F 0).asleep 0 = true ∧
    ((rewaking 0x3F 0).port 0).waking = none ∧ bitOf ((rewaking 31 0).rd (F.PW_GSLEEP.GSLEEP 0)) 31 = true := by
  decide +kernel

theorem witness_wakes : (sleeps 3).power.phase = .ready ∧ (sleeps 3).asleep 0 = true ∧ ((sleeps 3).port 0).waking = none ∧
    (sleeps 3).flag (F.PW_WCFG.WLEN 0) = true ∧ ((sleeps 3).port 0).wakeDrive = none ∧ ((sleeps 3).port 0).wakeOff = none ∧
    (sleeps 2).flag (F.PW_WCFG.BPEN 0) = true ∧ (sleeps 2).portState 0 = 2 ∧ (sleeps 3).portState 0 = 3 ∧
    ((sleeps 3).port 0).umbra = some (0, 0) ∧
    (((sleeps 2).port 0).pattern.watch ((sleeps 2).rd (F.PW_WCFG.BPFILT 0) * 20)
      ((sleeps 2).rd (F.PW_WCFG.BPWIN 0) * State.msClk) (sleeps 2).clk (levels.map fun x => (x.1, x.2.toNat))).2.2 = true ∧
    umbraBits.valid = true ∧ umbraBits.fast = false ∧
    (let f := umbraBits.frame ⟨false, false, false, false⟩
     (List.range 8).find? fun i => (sleeps 3).wakeFilterHit 0 i (matchKey false f.h1 f.h2) f.payload) = some 3 ∧
    ((sleepsRound 3).port 0).sleptAt < (sleepsRound 3).clk ∧
    (sleeps 4).flag (F.PW_WTIMER.TKEN 0) = true ∧ (sleeps 4).rd (F.PW_WTICK.TICKNO 0) = (sleeps 4).tickNo ∧
    (sleeps 4).tick.time = (sleeps 4).tick.boundary ∧ (sleeps 4).flag (F.PW_WCFG.PWAKE 0) = true ∧
    (sleeps 4).flag (F.PW_WTIMER.TMEN 0) = true := by decide +kernel

/-- Port 0 in a sleep round that the device coordinates. -/
def rounds (g : Nat) (r : Round) : State :=
  ((bus.wr (F.PW_PSTAT.COORD 0) 1).wr (F.PW_PSTAT.RGROUP 0) g).modPort 0 fun P => { P with round := some r }
def busy (s : State) : State := s.modPort 0 fun P => { P with busySince := some 900 }

/-- Block 0 with its ports in UMBRA, a word in its RAM and a word in RQ0 of port 0. -/
def umbraBlock : State :=
  (((List.range 8).foldl (fun s k => s.wr (F.PW_PSTAT.STATE k) 3) dev).wrRam 0 0x2400 77).modQueue 0 fun _ => { vis := packet [1, 2, 3] }
def poweringUp : State := (umbraBlock.wr F.SYS_PWRDOM.PWRUP 1).wr (F.PW_PSTAT.PWRUP 7) 1

/-- A committed round whose delay is over, on an idle bus, with a wake held. -/
def entersNow (g : Nat) : State :=
  ((rounds g { coord := 5, sdly := some 0 }).wr (F.PW_PCFG.SLEEPST 0) 3).modPort 0 fun P => { P with held := some ⟨4, 0, 0x3FF⟩ }
def patterned (lv : Bool) (run : Nat) : State :=
  ((sleeps 2).modPort 0 fun P => { P with pattern := ⟨1, 100, lv, run⟩ }).advanceClk 500

theorem witness_entries : (entersNow 31).rewakes = entersNow 31 ∧ ((entersNow 31).port 0).held = some ⟨4, 0, 0x3FF⟩ ∧
    ((entersNow 31).port 0).rewake = none ∧ (entersNow 0x3F).busIdle 0 = true ∧ ((entersNow 0x3F).port 0).roundSleep = false ∧
    2 ≤ (entersNow 0x3F).rd (F.PW_PCFG.SLEEPST 0) ∧ (entersNow 0x3F).rd (F.PW_PSTAT.RGROUP 0) = 0x3F ∧
    (rounds 0x3F { coord := 5, window := some 0 }).isStandby = false ∧ (rounds 0x3F { coord := 5, window := some 0 }).compat 0 = false ∧
    ((rounds 0x3F { coord := 5, window := some 0 }).port 0).net = none ∧
    ((rounds 0x3F { coord := 5, window := some 0 }).wr (F.PW_PCFG.MINVOTE 0) 0).rd (F.PW_PCFG.MINVOTE 0) ≤ 0 ∧
    (rounds 0x3F { coord := 5, window := some 0 }).rewakes = rounds 0x3F { coord := 5, window := some 0 } ∧
    ((patterned true 400).port 0).pattern = ⟨1, 100, true, 400⟩ ∧ (patterned true 400).rewakes = patterned true 400 ∧
    ((patterned false 400).port 0).pattern.level = false ∧
    (patterned false 400).clk - 400 + (patterned false 400).rd (F.PW_WCFG.BPFILT 0) * 20 ≤
      100 + (patterned false 400).rd (F.PW_WCFG.BPWIN 0) * State.msClk + 1 ∧
    ((sleeps 2).port 0).pattern.phases = 0 ∧ umbraBlock.rewakes = umbraBlock ∧ poweringUp.rewakes = poweringUp := by
  decide +kernel

theorem witness_rounds : ((rounds 0x3F { coord := 5, window := some 0 }).wr (F.PW_PCFG.MINVOTE 0) 1).flag (F.PW_PSTAT.COORD 0) = true ∧
    0 < ((rounds 0x3F { coord := 5, window := some 0 }).wr (F.PW_PCFG.MINVOTE 0) 1).rd (F.PW_PCFG.MINVOTE 0) ∧
    (rounds 0x3F { coord := 5, window := some 0 }).rd (F.PW_PCFG.MINVOTE 0) ≤ 1 ∧
    ((rounds 31 { coord := 5, sdly := some 0 }).port 0).roundSleep = false ∧
    (rounds 31 { coord := 5, sdly := some 0 }).rd (F.PW_PSTAT.RGROUP 0) < 32 ∧
    (rounds 31 { coord := 5, sdly := some 0 }).rd (F.PW_GSLEEP.GSLEEP 0) < 2 ^ 32 ∧
    ((rounds 31 { coord := 5, sdly := some 0 }).port 0).held = none ∧
    (rounds 0x3F { coord := 5, sdly := some 0 }).rd (F.PW_PSTAT.RGROUP 0) = 0x3F ∧
    (busy (rounds 0x3F { coord := 5, sdly := some 0 })).busIdle 0 = false ∧
    ((bus.modPort 0 fun P => { P with waking := some ⟨1, 700, 699, 0, 2⟩ }).port 0).waking.isSome = true ∧
    bus.blockOn 0 = true ∧
    ((bus.modPort 0 fun P => { P with wakeDrive := some 800 }).port 0).wakeDrive = some 800 := by decide +kernel

theorem witness_blockPower : umbraBlock.power.phase = .ready ∧ umbraBlock.blockOn 0 = true ∧
    ((State.blockPorts 0).all fun n => decide (3 ≤ umbraBlock.portState n) && (umbraBlock.port n).xferOpen.isNone) = true ∧
    poweringUp.power.phase = .ready ∧ bitOf (poweringUp.rd F.SYS_PWRDOM.PWRUP) 0 = true := by decide +kernel

/-- The mirror cell of block 0 is taking port 3 over. -/
def taking (hard : Bool) : State :=
  (bus.wr (F.PW_PSTAT.STATE 3) 0).modBlock 0 fun B => { B with takeover := some ⟨3, hard, 100, 7, 0⟩ }
def takingBusy (hard : Bool) : State := (taking hard).modPort 3 fun P => { P with busySince := some 900 }

/-- The mirror cell of block 0 listens to port 0, whose serving cell has reported the frame of PRI 9 with the given first
header word. -/
def mirroring (reports : List Nat) : State :=
  (bus.wr (F.BK_PINMUX.MLISTEN 0) 0).modBlock 0 fun B =>
    { B with since := 0, reports := reports.map fun h1 => ({ umbraBits.frame ⟨false, false, false, false⟩ with h1 := h1 }, 908, 908) }

theorem witness_cells : bus.power.phase = .ready ∧ bus.blockOn (0 / 9) = true ∧ bus.cellFailed 0 = false ∧ bus.wear.live.length < 64 ∧
    bus.inLedger 0 0 = false ∧ bus.wear.live.length + 9 ≤ 64 ∧ (0x0#9).getLsbD 0 = false ∧ bus.heldInReset 0 = false ∧ ((taking true).block 0).takeover = some ⟨3, true, 100, 7, 0⟩ ∧
    (takingBusy true).servedPort 3 = some 3 ∧ (takingBusy true).busIdle 3 = false ∧ (taking true).servedPort 3 = some 3 ∧
    (taking true).busIdle 3 = true := by decide +kernel

theorem witness_mirror : (Scan.run' ((mirroring []).ear 0 false) {} (frame9 ++ [true]) []).valid = true ∧
    (mirroring []).inScope 0 0 900 = true ∧ ((mirroring []).block 0).reports = [] ∧
    (State.takeFirst (fun r => State.stampGap 906 r.2.1 ≤ 8) ((mirroring [9 * 2 ^ 7]).block 0).reports).isSome = true ∧
    State.takeFirst (fun r => State.stampGap 906 r.2.1 ≤ 8) ((mirroring []).block 0).reports = none ∧
    State.stampGap 906 908 = 2 ∧ State.stampGap 900 908 = 8 ∧ State.stampGap 899 908 = 9 := by decide +kernel

/-- SELFTEST of engine 3 is under way; a record is being programmed. -/
def testing : State := dev.modEngine fun g => { g with handoffs := [⟨0x71, 9, false, 1, [], .host, 0, 128 + 3, none⟩] }
def testing' (tag : Nat) : State := dev.modEngine fun g => { g with
  handoffs := [⟨0x71, 9, false, 1, [], .host, 0, tag, none⟩], ledger := [(1, ⟨9, 0, 1, 2, 0, false, false, 0, false⟩)] }
def programming : State :=
  dev.modWear fun w => { w with live := [⟨false, 0, 17, 1, 0, 5⟩], programming := some 0, otp := [none] }

theorem witness_engines : (inPhase 1).power.phase = .ready ∧ (inPhase 1).engineFailed 8 = false ∧
    (inPhase 1).rd F.SP_ENGINE.FAILED < 512 ∧ testing.handoff 0x59 (128 + 3) = none ∧
    testing.handoff 0x71 (128 + 3) = some ⟨0x71, 9, false, 1, [], .host, 0, 128 + 3, none⟩ ∧
    (testing' 5).handoff 0x71 5 = some ⟨0x71, 9, false, 1, [], .host, 0, 5, none⟩ ∧
    ((testing' 5).block 0).returning = none ∧ (testing' (256 + 2)).handoff 0x59 (256 + 2) = none ∧
    ((testing' (256 + 2)).handoff 0x71 (256 + 2)).isSome = true ∧
    Sparse.find (testing' 5).engine.ledger 1 = some ⟨9, 0, 1, 2, 0, false, false, 0, false⟩ ∧
    programming.wear.programming = some 0 ∧ programming.wear.live[0]? = some ⟨false, 0, 17, 1, 0, 5⟩ ∧
    programming.wear.otp.length < 64 := by decide +kernel

/-- Row 511 of block 11's RAM is being copied. -/
def copying : State := dev.modWear fun w => { w with copies := [⟨.block 11, 511, 0⟩] }

theorem witness_rows : copying.power.phase = .ready ∧
    (copying.wear.copies.find? fun x => x.ram == .block 11 && x.row == (511#12).toNat) = some ⟨.block 11, 511, 0⟩ ∧
    dev.blockOn 11 = true := by decide +kernel

/-- Slot 3 of block 0 has failed for the cause of SPARE_TAKE, and the mirror serves port 3. -/
def mirrored : State := ((bus.wr (State.failedField 3) 1).wr (State.causeField 3) 5).wr (State.slotField 0 3) 8

/-- A device that may program the OTP: VAUX in its window. -/
def mayProgram : State := (dev.modWear fun w => { w with live := [⟨false, 0, 17, 1, 0, 5⟩] }).wr F.SYS_VMON.VAUX 1800

theorem witness_spares : bus.starts cmdSpareTake (pkt 1 [3]) = true ∧ unitArg (Operand.args (pkt 1 [3])) = some (.cell 3) ∧
    bus.mirrorFree (3 / 9) = true ∧ mirrored.starts cmdSpareTake (pkt 1 [4]) = true ∧ mirrored.mirrorFree (4 / 9) = false ∧
    bus.starts cmdSpareTake (pkt 1 [2 ^ 16 + 7]) = true ∧ unitArg (Operand.args (pkt 1 [2 ^ 16 + 7])) = some (.engine 7) ∧
    bus.spareReady = true ∧ (bus.wr F.SP_ENGINE.FAILED 256).spareReady = false ∧
    (bus.wr F.SP_ENGINE.FAILED 256).starts cmdSpareTake (pkt 1 [2 ^ 16 + 7]) = true ∧ bus.rd F.SP_ENGINE.FAILED < 512 ∧ bus.starts cmdSpareTake (pkt 1 [2 * 2 ^ 16]) = true ∧
    unitArg (Operand.args (pkt 1 [2 * 2 ^ 16])) = some (.lane 0) ∧
    ((List.range 3).find? fun x => x != 0 && !bus.laneFailed x && !bus.laneCarries x) = some 2 ∧
    bus.rd F.SP_LANE.FAILED < 8 ∧ mirrored.starts cmdSpareReturn (pkt 1 [0]) = true ∧
    unitArg (Operand.args (pkt 1 [0])) = some (.cell 0) ∧ mirrored.mirrorServes 0 = some 3 ∧
    State.hardCause (mirrored.rd (State.causeField 3)) = false ∧ mirrored.inLedger 0 3 = false ∧
    bus.starts cmdSelftest (pkt 1 [2 * 2 ^ 16 + 2]) = true ∧ bus.testBusy (.lane 2) = false ∧
    mayProgram.starts cmdWearRecord (pkt 1 [0]) = true ∧ mayProgram.canProgram = true ∧
    mayProgram.wear.programming = none := by decide +kernel

/-! ### Witnesses: frame boundaries and the host port -/

/-- Port 0 sends buffer 127 in internal loopback while a change of mode waits. -/
def looping : State := busAtt.modPort 0 fun P => { P with busTest := 2, timingChange := true }

/-- The cell of an ACTIVE port, not in listen mode, still searches the rate. -/
def searchingOn : State := bus.wr (F.CL_ARSTAT.STATE 0) 2

theorem witness_searchEnds : searchingOn.power.phase = .ready ∧ searchingOn.portState 0 = 0 ∧ searchingOn.isStandby = false ∧
    (searchingOn.port 0).busTest ≠ 1 ∧ searchingOn.searching 0 = true ∧ searchingOn.servingCell 0 = 0 ∧
    bus.rd (F.CL_ARSTAT.STATE 0) = 0 ∧
    ((bus.wr (F.BK_PINMUX.MLISTEN 0) 5).rd (F.BK_PINMUX.MLISTEN 0)) ≠ 0 := by decide +kernel

theorem witness_frameBoundary : bus.power.phase = .ready ∧ bus.servingCell 0 = 0 ∧ (bus.cell 0).rxSof ≠ some (bus.tick.time - 2) ∧
    (bus.port 0).routeNext = none ∧ (bus.block 0).moveTo ≠ some 0 ∧ (bus.port 0).timingChange = false ∧
    (bus.port 0).powerNext = none ∧ bus.loops 0 = false ∧ looping.loops 0 = true ∧ (looping.port 0).timingChange = true ∧
    (looping.cell 0).rxSof ≠ some (looping.tick.time - 2) ∧ ((bus.modPort 0 fun P => { P with timingChange := true }).port 0).timingChange = true ∧
    ((bus.modPort 0 fun P => { P with powerNext := some 1 }).port 0).powerNext = some 1 := by decide +kernel

/-- Whether fields meet the conditions of RegisterWrites for a value, in the presentation clk. -/
def writable (s : State) (d : Nat) (fs : Reg) : Bool :=
  (fs.map Field.key).eraseDups == fs.map Field.key && fs.all fun f =>
    decide (1 ≤ f.width) && decide (f.addr < 2 ^ 20) && decide (f.lo < 64) &&
    (!(f.acc == .st || f.acc == .rw || f.acc == .w1c) ||
      !([F.CE_JLOG.NEXT.key, F.CE_JLOG.TOTAL.key, F.CE_CNT.LOCKDISC.key, F.HP_DISCAP.CAUSE.key, F.HP_DISCAP.RD.key,
        F.HP_DISCAP.ADDR.key, F.HP_ERR.DISC.key].contains f.key)) &&
    (!(f.acc == .sc || (f.addr == 0x10 && f.lo == 0)) || f.of d == 0) &&
    (!(f.acc == .rw && decide (0x4000 ≤ f.addr) && decide (f.addr < 0x4600)) ||
      ((List.range 96).any fun n => f.key == (F.PW_PCFG.HOLD n).key) && (f.of d == 0 || s.flag f))

/-- The fields that a write of the host at an address reaches, in the presentation clk; none where it reaches no register
that is powered. -/
def fieldsAt (s : State) (a : Nat) : Reg :=
  match targetOf a with
  | .reg fs => fs
  | .blockReg b fs => if s.blockOn b then fs else []
  | .cellReg c r => if s.blockOn (c / 9) then r.filterMap (s.pageField c) else []
  | _ => []

/-- The register at an address. -/
def regAt (a : Nat) : Reg := match targetOf a with | .reg r => r | _ => []

theorem witness_registers : targetOf 0x1000 = .reg (regAt 0x1000) ∧ targetOf 0x3100 = .reg (regAt 0x3100) ∧
    targetOf 0x100D = .reg (regAt 0x100D) ∧ targetOf 0xFFFFF = .unmapped ∧ targetOf 0x57FFF = .captured 32767 ∧
    targetOf (queueBase 2) = .qData 2 :=
  ⟨rfl, rfl, rfl, rfl, rfl, rfl⟩

/-- The presentation clk of a write: whether the fields that it reaches meet the conditions, and are some. -/
def accepts (h : State) (a d : Nat) : Bool :=
  let s := h.hostSlot a
  h.hostOn && writable s d (fieldsAt s a) && !(fieldsAt s a).isEmpty

/-- CHIP is recorded in the clk of the access; port 0 under HOLD; an active device with a partner; a standby. -/
def chipNow : State := (dev.wr F.SYS_FAULT.CHIP 1).modTick fun u => { u with clk := 1 }
def linkedOn (role : Nat) : State := ((dev.wr F.SP_PSTAT.LINK 2).wr F.SP_PSTAT.ROLE role).wr F.SP_PAIR.EN 1

theorem witness_registerWrites : accepts dev 0x1000 1 = true ∧ accepts dev 0x3100 6 = true ∧
    accepts (bus.wr (F.PW_PCFG.HOLD 0) 1) (F.PW_PCFG.HOLD 0).addr (2 ^ (F.PW_PCFG.HOLD 0).lo) = true ∧
    accepts bus (F.CL_ERRCTRL.RECMODE 0).addr 0 = true ∧ accepts bus (F.BK_PINMUX.MLISTEN 0).addr 0 = true ∧
    (dev.hostSlot 0x1000).isStandby = false ∧ (dev.hostSlot 0x1000).locked = false ∧
    (devLocked.hostSlot 0x1000).locked = true ∧ (devLocked.hostSlot 0x1000).isStandby = false ∧ accepts devLocked 0x1000 1 = true ∧
    F.TK_CTRL.OUT_EN.acc = .st ∧ State.classHas F.TK_CTRL.OUT_EN = true ∧
    F.TK_CTRL.OUT_EN.of 1 ≠ (devLocked.hostSlot 0x1000).staged F.TK_CTRL.OUT_EN ∧
    ((linkedOn 1).hostSlot 0x1000).streams 0x1000 1 = true ∧ (dev.hostSlot 0x3100).streams 0 1 = false ∧
    ((linkedOn 2).hostSlot 0x1000).isStandby = true ∧ accepts (linkedOn 2) 0x1000 1 = true := by
  decide +kernel

theorem witness_recorded : (chipNow.hostSlot F.SYS_FAULT.CHIP.addr).recordedNow F.SYS_FAULT.CHIP = none ∧
    chipNow.hostOn = true := by decide +kernel

def devCounted : State := (inPhase 1).wr F.TK_MISS.MAP 17

theorem witness_registerReads : devCounted.hostOn = true ∧
    ((regAt 0x100D).map Field.key).eraseDups = (regAt 0x100D).map Field.key ∧
    (match targetOf (F.CL_FILTCNT.NOMATCH 0).addr with
      | .cellReg c r => (bus.hostSlot (F.CL_FILTCNT.NOMATCH 0).addr).blockOn (c / 9) && r.all fun f => decide (f.addr < 0x90801)
      | _ => false) = true ∧
    (match targetOf (F.BK_ECC.CORR 0).addr with
      | .blockReg b _ => (bus.hostSlot (F.BK_ECC.CORR 0).addr).blockOn b
      | _ => false) = true := by decide +kernel

/-- Cell 0 waits in BUS_OFF for its release; cell 0 alone under HOLD; the two partners of a pair. -/
def waitsOff : State := (bus.wr (F.CL_STATUS.CONF 0) 3).wr (F.CL_STATUS.RECOV 0) 1
def alone : State := (bus.wr (F.CL_STATUS.ALONE 0) 1).wr (F.CL_ERRCTRL.PACE 0) 2
def linked (role : Nat) : State := ((bus.wr F.SP_PSTAT.LINK 2).wr F.SP_PSTAT.ROLE role).wr F.SP_PAIR.EN 1
def bulked : State := (dev.wr (F.QCFG.BIND 0x203) 2).modQueue 0x203 fun _ => { vis := packet [1, 2], opened := packet [3] }

theorem witness_hostActions : dev.hostOn = true ∧ 0 ∉ (dev.hostSlot F.SYS_FAULT.CHIP.addr).pair.causes ∧
    ((src 1 2).hostSlot F.TK_CTRL.REACQ.addr).rd F.TK_SRC.SRC ≠ 0 ∧ (dev.hostSlot F.TK_CTRL.REACQ.addr).rd F.TK_SRC.SRC = 0 ∧
    (dev.hostSlot F.TK_CTRL.REACQ.addr).isStandby = false ∧ waitsOff.hostOn = true ∧
    (waitsOff.hostSlot (F.CL_ERRCTRL.RELEASE 0).addr).blockOn 0 = true ∧
    (waitsOff.hostSlot (F.CL_ERRCTRL.RELEASE 0).addr).awaitsRelease 0 = true ∧
    waitsOff.starts cmdPortRecover (pkt 1 [tgt 0 0]) = true ∧ waitsOff.awaitsRelease 0 = true ∧ waitsOff.servingCell 0 = 0 ∧
    alone.hostOn = true ∧ (alone.hostSlot (F.CL_ERRCTRL.RETRY 0).addr).servedPort 0 = some 0 ∧
    (alone.hostSlot (F.CL_ERRCTRL.RETRY 0).addr).blockOn 0 = true ∧
    (alone.hostSlot (F.CL_ERRCTRL.RETRY 0).addr).flag (F.CL_STATUS.ALONE 0) = true ∧
    (alone.hostSlot (F.CL_ERRCTRL.RETRY 0).addr).rd (F.CL_ERRCTRL.PACE (State.home 0)) = 2 ∧
    (alone.hostSlot (F.CL_ERRCTRL.RETRY 0).addr).locked = false ∧ (linked 1).hostOn = true ∧
    ((linked 1).hostSlot F.SP_PAIR.RSREQ.addr).linkUp = true ∧
    ((linked 1).hostSlot F.SP_PAIR.RSREQ.addr).flag F.SP_PSTAT.RESYNC = false ∧
    ((linked 1).hostSlot F.SP_PAIR.RSREQ.addr).rd F.SP_PSTAT.ROLE ≠ 0 ∧ bulked.hostOn = true := by decide +kernel

/-- A state whose presentation clk is one in which CHIP has been set. -/
def chipHere : State :=
  let s := (dev.wr F.SYS_FAULT.CHIP 1).hostSlot F.SYS_FAULT.CHIP.addr
  { s with hostClk := none, recorded := [(F.SYS_FAULT.CHIP.key, (s.tick.clk + 1, 0, 1))] }

theorem witness_chipKept : chipHere.hostOn = true ∧
    ((chipHere.hostSlot F.SYS_FAULT.CHIP.addr).recordedNow F.SYS_FAULT.CHIP).isSome = true := by decide +kernel

/-- RQ0 of port 0 enabled with a packet, TQ of port 0 enabled with an open packet of `n` words. -/
def popping : State := (dev.wr (F.QCFG.EN 0) 1).modQueue 0 fun _ => { vis := packet [5, 6] }
def pushing (n : Nat) : State :=
  (dev.wr (F.QCFG.EN 2) 1).modQueue 2 fun _ => { opened := (List.replicate n ⟨0, false, none⟩) }

/-- The presentation clk of an access to queue port `q`, and that with what has come about in the queue. -/
def atPort (h : State) (q : Nat) : State := h.hostSlot (queueBase q)

theorem witness_queuePorts : popping.hostOn = true ∧ queueExists 0 = true ∧ (atPort popping 0).hostConsumes 0 = true ∧
    (((atPort popping 0).settle 0).queue 0).vis = [QWord.mk 5 false none, QWord.mk 6 true none] ∧
    (atPort (popping.wr (F.QCFG.EN 1) 1) 1).hostConsumes 1 = true ∧
    (((atPort (popping.wr (F.QCFG.EN 1) 1) 1).settle 1).queue 1).vis = [] ∧ queueExists 2 = true ∧
    (atPort (pushing 5) 2).hostProduces 2 = true ∧ ((atPort (pushing 5) 2).queue 2).discarding = false ∧
    ((atPort (pushing 5) 2).queue 2).coming = [] ∧ (atPort (pushing 5) 2).credit 2 ≠ 0 ∧
    ((atPort (pushing 5) 2).queue 2).opened.length < State.Queue.maximum 2 ∧
    (((atPort (pushing 5) 2).queue 2).opened ++ [QWord.mk 9 true none]).length =
      State.Queue.wanted 2 ((((atPort (pushing 5) 2).queue 2).opened ++ [QWord.mk 9 true none]).headD ⟨0, false, none⟩).word.toNat ∧
    ((pushing 36).hostSlot (queueBase 2 + 1)).hostProduces 2 = true ∧ 2 ≤ ((pushing 36).hostSlot (queueBase 2 + 1)).credit 2 ∧
    (((pushing 36).hostSlot (queueBase 2 + 1)).queue 2).discarding = false ∧
    (((pushing 36).hostSlot (queueBase 2 + 1)).queue 2).opened.length + 1 < State.Queue.maximum 2 ∧
    (pushing 36).hostOn = true := by decide +kernel

/-- A host-write list of 64 entries, and a device in the boundary clk. -/
def listFull : State := dev.modGw fun g => { g with collecting := (List.range 64).map fun i => ⟨i, 3, 0⟩ }
def atBoundary : State := dev.modTick fun u => { u with time := 50000 }

theorem witness_windows : dev.hostOn = true ∧ (dev.hostSlot (0x58000 + 9)).isStandby = false ∧
    (dev.hostSlot (0x58000 + 9)).rd F.GW_HWCTRL.WE ≠ 0 ∧ (dev.hostSlot (0x58000 + 9)).gateway.collecting.length < 64 ∧
    (dev.hostSlot (0x58000 + 9)).boundaryHere = false ∧ (atBoundary.hostSlot (0x58000 + 9)).boundaryHere = true ∧
    atBoundary.hostOn = true ∧ (atBoundary.hostSlot (0x58000 + 9)).gateway.late.length < 64 ∧ listFull.hostOn = true ∧
    64 ≤ (listFull.hostSlot (0x58000 + 100)).gateway.collecting.length ∧
    ((listFull.hostSlot (0x58000 + 100)).gateway.collecting.all fun e => e.index != 100) = true ∧
    ((listFull.hostSlot (0x58000 + 9)).gateway.collecting.any fun e => e.index == 9) = true ∧
    (dev.hostSlot (0x60000 + 7)).isStandby = false ∧ (dev.hostSlot (0x20000 + 11 * 0x4000 + 0x3FFF)).blockOn 11 = true ∧
    (dev.hostSlot (0x20000 + 11 * 0x4000 + 0x3FFF)).queueAtRam 11 (2 * 0x3FFF) = none ∧
    (dev.hostSlot (0x20000 + 11 * 0x4000 + 0x1200)).queueAtRam 11 (2 * 0x1200) = none := by decide +kernel

/-- The rewrite of buffer 127's status pair is to come. -/
def rewritten : State := { bufs bus with rewrites := [⟨0, 127, false, 8, [], (0, 0)⟩] }

/-- The presentation clk of an access to the status pair of buffer 127 of port 0, and to its PW_PCFG. -/
def atPair (h : State) : State := h.hostSlot (statusAddr 0 127)
def atHold (h : State) : State := h.hostSlot (F.PW_PCFG.HOLD 0).addr

theorem witness_holds : rewritten.hostOn = true ∧ (atPair rewritten).blockOn 0 = true ∧ (atPair rewritten).rewriting 0 127 = true ∧
    (atPair rewritten).isStandby = false ∧ (bufs bus).hostOn = true ∧ (atPair (bufs bus)).rewriting 0 127 = false ∧
    ((atPair rewritten).desc 0 127).isTx = true ∧ (atPair rewritten).asleep 0 = false ∧
    (atPair rewritten).suspended 0 127 = false ∧ (atPair (bufs bus)).isStandby = false ∧ (atPair (bufs bus)).blockOn 0 = true ∧
    ((atPair (bufs bus)).desc 0 127).isTx = true ∧ (atPair (bufs bus)).asleep 0 = false ∧
    (atPair (bufs bus)).suspended 0 127 = false ∧ busListen.hostOn = true ∧ (atHold busListen).portState 0 = 1 ∧
    (atHold busListen).isStandby = false ∧ ((atHold busListen).port 0).waking = none ∧ (atHold busListen).locked = false ∧
    (sleeps 2).hostOn = true ∧ (atHold (sleeps 2)).asleep 0 = true ∧ ((atHold (sleeps 2)).port 0).waking = none ∧
    ((atHold (sleeps 2)).port 0).roundSlept = false ∧ (atHold (sleeps 2)).flag (F.PW_PCFG.HOLD 0) = false := by decide +kernel

/-- Receive buffer 3 of port 0 under HOLD with a shadow copy, SHNEW and SHBUSY as given, in the presentation clk. -/
def heldRx (shnew xbusy : Nat) : State :=
  ((busHold 1 shnew).setS0 0 3 12 12 xbusy).hostSlot (statusAddr 0 3)

theorem witness_holdRelease : (busHold 1 1).hostOn = true ∧ ([(1, 0), (0, 1), (1, 1), (0, 0)].all fun e =>
      let s := heldRx e.1 e.2
      !s.isStandby && s.blockOn 0 && !s.rewriting 0 3 && (s.desc 0 3).isRx && s.held 0 3 && s.shnew 0 3 == (e.1 == 1) &&
        s.xbusy 0 3 == (e.2 == 1)) = true ∧
    (({ busShut with blockRam := bus.blockRam } : State).portATurn 0).held 0 3 = false ∧ busShut.servedPort 0 = some 0 := by
  decide +kernel

theorem witness_releases : (bufs bus).starts cmdBufferRelease (pkt 1 [tgt 0 127]) = true ∧
    (bufs bus).starts cmdBufferRelease (pkt 1 [tgt 0 3]) = true ∧ ((bufs bus).desc 0 3).isTx = false ∧
    ((bufs bus).desc 0 127).isTx = true ∧
    (((bufs bus).begun cmdBufferRelease (pkt 1 [tgt 0 127])).rewakes).asleep 0 = false ∧
    (((bufs bus).begun cmdBufferRelease (pkt 1 [tgt 0 127])).rewakes).suspended 0 127 = false := by decide +kernel

theorem witness_hostErrors : dev.hostOn = true ∧ (dev.hostSlot 0x1000).flag F.HP_CTRL.PCHK = true ∧
    0xF010000 ∉ (dev.hostSlot 0x1000).once ∧ (atPort (pushing 5) 2).flag F.HP_CTRL.PCHK = true ∧
    ((atPort (pushing 5) 2).queue 2).opened ≠ [] ∧ ((atPort dev 2).queue 2).opened = [] ∧
    0xF010000 ∉ (atPort (pushing 5) 2).once ∧ (dev.hostSlot 0x57FFF).isBad .captured (2 * 32767) = false ∧
    (dev.hostSlot 0x57FFF).isBad .captured (2 * 32767 + 1) = false := by decide +kernel

/-! ### Witnesses: resets, telemetry, the pair -/

/-- A device with an OTP record and a live one, in each phase of its power-on. -/
def worn (ph : RunPhase) : State :=
  (({ power := { phase := ph } } : State).modWear fun w =>
    { w with live := [⟨false, 0, 17, 1, 0, 5⟩], otp := [some ⟨true, 2, 1, 7, 0, 3⟩] }).wr F.SYS_STRAP.PORTSTART 1

theorem witness_startUp : State.reset.power.phase = .inReset ∧ (worn .starting).power.phase = .starting ∧
    (worn .starting).flag F.SYS_STRAP.PORTSTART = true := by decide +kernel

/-- Telemetry is due in HOUSE, bound to HB2 or to no queue. -/
def telem (bind : Nat) : State := ((inPhase 3).wr F.SYS_TELCFG.PERIOD 1).wr (F.QCFG.BIND 0x202) bind

theorem witness_telemetry : (telem 5).telemetryDue = true ∧ 0xE050000 ∉ (telem 5).once ∧ (telem 5).boundQueue 5 = some 0x202 ∧
    106 ≤ (telem 5).room 0x202 ∧ (telem 0).boundQueue 5 = none ∧ dev.power.outside = [] ∧ dev.power.sensed = false ∧
    (dev.modPower fun w => { w with sensed := true }).power.sensed = true ∧
    ((telem 5).wr (F.QCTL.CEIL 0x202) 72).boundQueue 5 = some 0x202 ∧ ((telem 5).wr (F.QCTL.CEIL 0x202) 72).room 0x202 < 106 := by
  decide +kernel

/-- Chapter 17, the trip at 135 °C: one sensor reads it, the others lie near it, or it is excluded; the codes are eighths
of a degree (Table 17-10d). -/
theorem witness_temperatures : State.trips [1080, 1000, 1010, 1020] = true ∧ State.trips [1080, 100, 100, 100] = false ∧
    State.excludes [1080, 100, 100, 100] (signed12 1080) = true ∧ State.trips [300, 310, 320, 4095] = false ∧
    dev.flag (F.SYS_TEMP.EXCL 0) = false := by decide +kernel

def paired : State := (linked 2).wr F.SYS_PLLSTAT.TRUN 1
def apart : State := ((dev.wr F.SP_PAIR.EN 1).wr F.SP_PSTAT.SENIOR 1)

/-- Two lanes are lost with the tether PLL, a third had failed before; both logical lanes are lost. -/
def relocking : State := (((paired.wr F.SP_LANE.FAILED 7).wr F.SP_LANE.PHYA 3).wr F.SP_LANE.PHYB 3).modWear fun w =>
  { w with pllLanes := [0, 1] }
def junior : State := dev.wr F.SP_PAIR.EN 1
def claiming : State := junior.wr F.SP_PSTAT.ROLE 1

theorem witness_tether : paired.power.phase = .ready ∧ paired.flag F.SP_PAIR.EN = true ∧ paired.laneFailed 0 = false ∧
    paired.rd F.SP_LANE.FAILED < 8 ∧ paired.rd F.SP_LANE.PHYA = 0 ∧ paired.rd F.SP_LANE.PHYB = 1 ∧
    paired.flag F.SYS_PLLSTAT.TRUN = true ∧ paired.flag F.SYS_PLLSTAT.TLOCK = false ∧ apart.flag F.SP_PAIR.EN = true ∧
    apart.linkUp = false ∧ apart.flag F.SP_PSTAT.SENIOR = true ∧ apart.rd F.SP_PSTAT.ROLE ≠ 1 ∧
    relocking.rd F.SP_LANE.FAILED < 8 ∧ relocking.wear.pllLanes = [0, 1] ∧ relocking.rd F.SP_LANE.PHYA = 3 ∧
    relocking.flag F.SYS_PLLSTAT.TRUN = true ∧ relocking.flag F.SYS_PLLSTAT.TLOCK = false ∧ dev.flag F.SP_PAIR.EN = false ∧
    claiming.flag F.SP_PAIR.EN = true ∧ claiming.linkUp = false ∧ claiming.flag F.SP_PSTAT.SENIOR = false ∧
    claiming.rd F.SP_PSTAT.ROLE = 1 := by decide +kernel

/-- The device of this state gives the active role up to a partner of the other seniority when both have been running, or
neither has: whichever `ran` equals its own. -/
theorem witness_conflict :
    (if claiming.running = claiming.running then claiming.flag F.SP_PSTAT.SENIOR else claiming.running) = false := by
  decide +kernel

/-- A standby; one that awaits the partner's digest of a tick; one whose health traffic has failed. -/
def standby : State := linked 2
def awaiting (tick : Nat) (void : Bool) : State := standby.modPair fun p => { p with awaited := [(tick, 0x123456, void)] }
def deaf : State := ((standby.modPair fun p => { p with healthMissed := 9, wasEligible := true, lost := false }).wr F.SP_PAIR.AUTO 1).wr F.SP_PAIR.HLOSS 9

theorem witness_health : standby.power.phase = .ready ∧ standby.linkUp = true ∧ standby.isStandby = true ∧
    (awaiting 0 true).linkUp = true ∧ (awaiting 0 true).isStandby = true ∧
    (awaiting 0 true).pair.awaited = [(0, 0x123456, true)] ∧ (awaiting 0 false).pair.awaited = [(0, 0x123456, false)] ∧
    (0x123456#24).toNat = 0x123456 ∧ standby.pair.awaited = [] ∧ standby.pair.missTick ≠ some standby.tickNo ∧
    (awaiting 9 false).pair.awaited = [(9, 0x123456, false)] ∧ (awaiting 9 false).tickNo ≠ 9 ∧
    deaf.pair.lost = false ∧ deaf.power.phase = .ready ∧ deaf.rd F.SP_PSTAT.ROLE ≠ 0 ∧ deaf.rd F.SP_PAIR.HLOSS ≤ deaf.pair.healthMissed := by decide +kernel

/-- A standby in a resynchronization, in HOUSE. -/
def resyncing (snap : Option Nat) : State :=
  ((standby.wr F.SP_PSTAT.RESYNC 1).wr F.TK_STATUS.PHASE 3).modPair fun p => { p with snapTicks := snap }

/-- The active device in HOUSE, asked for a resynchronization. -/
def snapping : State := ((linked 1).wr F.TK_STATUS.PHASE 3).modPair fun p => { p with resyncWait := true }

/-- What a configuration transfer lists: words 5 and 7 of the knot table, word 3 of the scale table, TK_PERIOD, and a
staged TK_DL_MAP; the standby has set TK_DL_CAPTURE, which the active device has at its reset value. -/
def knotList : List (Nat × Word) := [(5, 9), (7, 0)]
def regList : List (Nat × Nat) := [(F.TK_PERIOD.PERIOD.key, 60000)]
def stageList : List (Nat × Nat) := [(F.TK_DL_MAP.OFFSET.key, 30000)]
def setApart : State := standby.wr F.TK_DL_CAPTURE.OFFSET 5000

theorem witness_transfer : (knotList.all fun e => decide (e.1 < 262144) && (knotList.all fun x => x.1 != e.1 || x == e)) = true ∧
    (regList.all fun e => State.transferred e.1) = true ∧ (stageList.all fun e => State.transferred e.1) = true ∧
    (setApart.regs.any fun e => State.transferred e.1 && regList.all fun x => x.1 != e.1) = true ∧
    setApart.linkUp = true ∧ setApart.isStandby = true ∧ (linked 1).linkUp = true ∧ (linked 1).rd F.SP_PSTAT.ROLE = 1 ∧
    (linked 1).power.phase = .ready := by decide +kernel

theorem witness_resync : snapping.power.phase = .ready ∧ snapping.linkUp = true ∧ snapping.rd F.SP_PSTAT.ROLE = 1 ∧
    snapping.pair.resyncWait = true ∧ snapping.phase = 3 ∧ standby.linkUp = true ∧ standby.isStandby = true ∧
    (standby.modPair fun p => { p with resyncWait := true }).pair.resyncWait = true ∧
    (resyncing none).power.phase = .ready ∧ (resyncing none).isStandby = true ∧
    (resyncing none).flag F.SP_PSTAT.RESYNC = true ∧ (resyncing none).phase = 3 ∧ 32767 ∉ (resyncing none).gateway.marked ∧
    32767 ∉ (resyncing none).gateway.wrote ∧ (resyncing none).pair.snapTicks = none ∧ (resyncing none).pair.resyncWait = false ∧
    (resyncing (some 256)).pair.snapTicks = some 256 ∧ (resyncing (some 256)).linkUp = true := by decide +kernel

theorem witness_switchover : (standby.wr F.SP_PSTAT.ELIG 1).starts cmdSwitchover (pkt 1 []) = true ∧
    (standby.wr F.SP_PSTAT.ELIG 1).flag F.SP_PSTAT.ELIG = true ∧ (standby.wr F.SP_PSTAT.ELIG 1).linkUp = true ∧
    (standby.wr F.SP_PSTAT.ELIG 1).isStandby = true ∧ ((linked 1).wr F.SP_PSTAT.PELIG 1).starts cmdSwitchover (pkt 1 []) = true ∧
    ((linked 1).wr F.SP_PSTAT.PELIG 1).rd F.SP_PSTAT.ROLE = 1 ∧ ((linked 1).wr F.SP_PSTAT.PELIG 1).flag F.SP_PSTAT.PELIG = true ∧
    ((linked 1).wr F.SP_PSTAT.PELIG 1).linkUp = true := by decide +kernel

/-- The standby in tick 5, its list of the tick still open or closed. -/
def fifth (closed : Bool) : State := (standby.wr F.TK_TICKNO.TICKNO 5).modPair fun p => { p with listClose := closed }
def handed : State := standby.modEngine fun g => { g with handoffs := [⟨0x41, 5, true, 1, [], .stream, 0, 0x10000 + 5, none⟩] }

theorem witness_stream : (fifth false).rewakes = fifth false ∧ (fifth false).power.phase = .ready ∧ (fifth false).linkUp = true ∧
    (fifth false).isStandby = true ∧ (fifth false).rd F.GW_HWCTRL.WE ≠ 0 ∧ (fifth false).gateway.collecting.length < 64 ∧
    (fifth false).tickNo = 5 ∧ (fifth false).pair.listClose = false ∧ (fifth true).pair.listClose = true ∧
    standby.starts cmdQueueCredit { pkt 1 [0x211, 72] with src := .stream } = true ∧ (specOf 0x21).forwarded = true ∧
    (specOf 0x68).forwarded = false ∧ standby.handoff 0x41 (0x10000 + 5) = none ∧
    (handed.handoff 0x41 (0x10000 + 5)).isSome = true ∧ handed.linkUp = true ∧ handed.rewakes = handed := by decide +kernel

theorem witness_streamWrites : writable standby 1 (fieldsAt standby 0x1000) = true ∧ (fieldsAt standby 0x1000).isEmpty = false ∧
    writable standby 6 (fieldsAt standby 0x3100) = true ∧ standby.locked = false ∧
    writable standby 0 (fieldsAt standby (F.CL_ERRCTRL.RECMODE 0).addr) = true ∧
    (fieldsAt standby (F.CL_ERRCTRL.RECMODE 0).addr).isEmpty = false ∧ standby.rewakes = standby ∧
    (match targetOf 0x60007, targetOf (0x20000 + 11 * 0x4000 + 0x3FFF) with
      | .knot i, .blockRam b j => i == 7 && standby.blockOn b && (standby.queueAtRam b (2 * j)).isNone && decide (0x1200 ≤ j)
      | _, _ => false) = true := by decide +kernel

/-! ### Witnesses: profiles -/

/-- Binding 2047, of a DI-16 node on port 0 with buffer 3, whose report of these words waits for its evaluation. -/
def report (payload : List Nat) : State :=
  { (putWords (bindKey 2047 0) [2 ^ 17 + 2 ^ 14 + 3, 7 * 2 ^ 8 + 9, 0x100] (bufs bus)).wrRams 0 (4 * 0xA00)
      (recordOf false false (9 * 2 ^ 7) (7 * 2 ^ 8) 2 900 payload) with evalQueue := [2047, 3] }

/-- What ProfileReports asks of the report: whether it is malformed. -/
def isMalformed (s : State) : Bool :=
  let b := s.binding 2047
  let base := s.newestRecord b.port b.rbuf
  State.malformed b (hKind (s.ram (b.port / 8) (base + 1)).toNat) (State.plenOf (s.ram (b.port / 8) base).toNat)
    fun i => (s.ram (b.port / 8) (base + 6 + i)).toNat

def owing : State := (report [5, 2 ^ 17, 0]).modBind 2047 fun B => { B with owed := true }
def areaDue : State := (inPhase 0).modBind 2047 fun B => { B with area := some ⟨[1, 2, 3], [(0, 5)], [], []⟩ }

theorem witness_reports : (report [5, 2 ^ 17, 0]).power.phase = .ready ∧ (report [5, 2 ^ 17, 0]).evalQueue.head? = some 2047 ∧
    ((report [5, 2 ^ 17, 0]).bind 2047).owed = false ∧ isMalformed (report [5, 2 ^ 17, 0]) = false ∧
    isMalformed (report [5, 2 ^ 17, 1]) = true ∧ (owing.bind 2047).owed = true ∧ owing.evalQueue.head? = some 2047 ∧
    areaDue.rd F.TK_STATUS.PHASE = 0 ∧ (areaDue.binds.all fun e => !(decide (e.1 < 2047) && e.2.area.isSome)) = true ∧
    (areaDue.bind 2047).area = some ⟨[1, 2, 3], [(0, 5)], [], []⟩ := by decide +kernel

/-- Binding 2047 of an AIO node with the tunnel through transmit buffer 127 and receive buffer 3; HB1 is bound 0x4 and
holds a request packet for it. -/
def hart (open' : Option Hart) : State :=
  (((putWords (bindKey 2047 0) [2 ^ 17 + 4 * 2 ^ 14 + 4, 7 * 2 ^ 8 + 9, 2 ^ 16 + 0x100, 127, 9 * 2 ^ 7 + 3, 50] (bufs bus)).wr
    (F.QCFG.BIND 0x201) 4).modQueue 0x201 fun _ =>
      { vis := packet [2 ^ 12 + 4, 2 * 2 ^ 15 + 2047, 33 * 2 ^ 12 + 3, 0x1234, 0x5] ++ packet [9] }).modBind 2047 fun B =>
        { B with hart := open', unread := [900] }

def hartRec : State :=
  (hart (some ⟨2, 33, 99999⟩)).wrRams 0 (4 * 0xA00) (recordOf false false (9 * 2 ^ 7) (7 * 2 ^ 8) 2 900 [2 * 2 ^ 15 + 2 ^ 14 + 33 * 2 ^ 8 + 1, 77])

/-- The reply closed after the expiry of the open transaction. -/
def hartLate : State := hart (some ⟨2, 33, 500⟩)
def hartOpen : State := (hart (some ⟨2, 33, 99999⟩)).modBind 2047 fun B => { B with unread := [] }

theorem witness_hart : (hart none).boundQueue 4 = some 0x201 ∧
    (Queue.head ((hart none).queue 0x201).vis).map (·.word.toNat) = [2 ^ 12 + 4, 2 * 2 ^ 15 + 2047, 33 * 2 ^ 12 + 3, 0x1234, 0x5] ∧
    (Queue.head ((hart none).queue 0x201).vis).any (·.bad.isSome) = false ∧ ((hart none).binding 2047).en = true ∧
    ((hart none).binding 2047).hen = true ∧ ((hart none).bind 2047).hart = none ∧ byteWords 3 = 2 ∧
    ((hart none).desc 0 127).isTx = true ∧ ((hart none).binding 2047).htbuf = 127 ∧ (hart none).asleep 0 = false ∧
    (hart none).suspended 0 127 = false ∧ ((hart (some ⟨2, 33, 99999⟩)).bind 2047).hart.isSome = true ∧
    ((hart none).bind 2047).unread = [900] ∧ (hartRec.bind 2047).hart = some ⟨2, 33, 99999⟩ ∧ hartRec.clk ≤ 99999 ∧
    0 < State.plenOf (hartRec.ram 0 (hartRec.newestRecord 0 3)).toNat ∧
    (hartRec.ram 0 (hartRec.newestRecord 0 3 + 6)).toNat = 2 * 2 ^ 15 + 2 ^ 14 + 33 * 2 ^ 8 + 1 ∧
    (hartRec.bind 2047).unread = [900] ∧ (hartLate.bind 2047).unread = [900] ∧
    (hartLate.bind 2047).hart = some ⟨2, 33, 500⟩ ∧ (hartOpen.bind 2047).unread = [] ∧ (hartOpen.bind 2047).hart = some ⟨2, 33, 99999⟩ := by decide +kernel

/-! ### Witnesses: the splice bridge -/

/-- Window 15 to node 9 of port 0, 100 words from 0xFFFFF0, with locks; port 0 serves the bridge through transmit
buffers 127 and 126 and receive buffer 3. -/
def spliced : State :=
  let s := (((bufs bus).wr (F.SB_WCFG.EN 15) 1).wr (F.SB_WCFG.ORG 15) 9).wr (F.SB_WCFG.LOCKOK 15) 1
  let s := ((s.wr (F.SB_WBASE.BASE 15) 0xFFFFF0).wr (F.SB_WRANGE.SIZE 15) 100).wr (F.SB_WRANGE.PRI 15) 1500
  let s := ((s.wr (F.SB_PBUF.EN 0) 1).wr (F.SB_PBUF.OTXBUF 0) 127).wr (F.SB_PBUF.ITXBUF 0) 126
  putWords (descKey 0 126 0) [2 * 2 ^ 16, 0, 0, 2 * 2 ^ 13 + 0x1FFE] ((s.wr (F.SB_PBUF.SRXBUF 0) 3).wrK (descKey 0 127 3) (2 * 2 ^ 13 + 0xC00))

def readPkt : Packet := pkt 7 [15, 40, 60 * 2 ^ 12]
def writePkt : Packet := pkt 7 [15, 98, 2 * 2 ^ 12, 5, 6]
def lockPkt : Packet := pkt 7 [15, 0]
def unlockPkt : Packet := pkt 7 [15]

/-- The node is locked by this device; every outbound entry is taken; window 15 prefetches and holds ten words. -/
def locked9 : State := spliced.modPort 0 fun P => { P with lock := some (9, 15, some 5000) }
def lockedElse : State := spliced.modPort 0 fun P => { P with lock := some (8, 15, some 5000) }
def win15 : WinSet := ⟨0, 9, 0xFFFFF0, 0, 1500, false⟩
def txn (k : TxnKind) : Txn := ⟨k, 15, win15, 1, 24, 2, 7, 2000, false, 0, true⟩
def fullTable : State := spliced.modTxns fun _ => (List.range 64).map fun e => (e, txn .poll)
def prefetched : State :=
  (((spliced.wr (F.SB_WCFG.NOSE 15) 1).wr (F.SB_WCFG.PFDEPTH 15) 20).wr (F.SB_WPF.PFBASE 15) 38).modWindow 15 fun W =>
    { W with buf := (List.range 10).map fun i => (BitVec.ofNat 18 i, if i < 4 then 2 else 1) }
def runningOn : State := prefetched.modWindow 15 fun W => { W with runOpen := some (10, true) }

theorem witness_remote : spliced.isStandby = false ∧ spliced.starts cmdRemoteRead readPkt = true ∧
    remoteWindow (Operand.args readPkt) = 15 ∧ spliced.refuseRemote 0x41 15 40 60 = none ∧ spliced.prefetches 15 = false ∧
    spliced.freeTxn = some 0 ∧ prefetched.starts cmdRemoteRead (pkt 7 [15, 40, 8 * 2 ^ 12]) = true ∧
    prefetched.refuseRemote 0x41 15 40 8 = none ∧ prefetched.prefetches 15 = true ∧ prefetched.rd (F.SB_WPF.PFBASE 15) = 38 ∧
    (prefetched.window 15).buf.length = 10 ∧ (prefetched.window 15).runOpen = none ∧
    prefetched.starts cmdRemoteRead (pkt 7 [15, 40, 9 * 2 ^ 12]) = true ∧ prefetched.refuseRemote 0x41 15 40 9 = none ∧
    prefetched.freeTxn = some 0 ∧ runningOn.starts cmdRemoteRead (pkt 7 [15, 40, 18 * 2 ^ 12]) = true ∧
    runningOn.refuseRemote 0x41 15 40 18 = none ∧ runningOn.prefetches 15 = true ∧ 38 + 10 < 40 + 18 ∧
    (runningOn.window 15).runOpen.map (·.1) = some 10 ∧ spliced.starts cmdRemoteRead (pkt 7 [15, 41, 60 * 2 ^ 12]) = true ∧
    spliced.refuseRemote 0x41 15 41 60 = some 0x09 ∧ fullTable.starts cmdRemoteRead readPkt = true ∧ fullTable.freeTxn = none ∧
    fullTable.refuseRemote 0x41 15 40 60 = some 0x0A ∧ spliced.starts cmdRemoteWrite writePkt = true ∧
    spliced.refuseRemote 0x42 15 98 2 = none ∧ lockedElse.starts cmdRemoteWrite writePkt = true ∧
    lockedElse.refuseRemote 0x42 15 98 2 = some 0x0A ∧ spliced.starts cmdRemoteLock lockPkt = true ∧
    spliced.refuseRemote 0x43 15 0 0 = none ∧ (spliced.port 0).lock = none ∧ lockedElse.starts cmdRemoteLock lockPkt = true ∧
    lockedElse.refuseRemote 0x43 15 0 0 = some 0x0A ∧ locked9.starts cmdRemoteUnlock unlockPkt = true ∧
    locked9.refuseRemote 0x44 15 0 0 = none ∧ locked9.freeTxn = some 0 ∧ spliced.starts cmdRemoteUnlock unlockPkt = true ∧
    spliced.refuseRemote 0x44 15 0 0 = some 0x09 := by decide +kernel

/-- A service frame of node 9 to this device stands stored on port 0. -/
def served (payload : List Nat) : State :=
  (spliced.wrRams 0 (4 * 0xA00) (recordOf false false (9 * 2 ^ 7 + 2 ^ 6) (9 * 2 ^ 8) 2 900 payload)).modPort 0 fun P =>
    { P with service := [800] }

/-- The same, with the port no longer served by the bridge. -/
def unserved : State := (served []).wr (F.SB_PBUF.EN 0) 0

/-- Entry 33 awaits the two words of the last frame of remote command 4, which is handed off. -/
def expecting (s : State) : State :=
  ((s.modBridge fun b => { b with txns := [(33, txn (.command 4))], nextCmd := 5 }).modBridge fun b =>
    { b with cmds := [(4, ⟨0x41, 15, win15, 40, 2, 7, 0, 0, [], [], false, true⟩)] }).modEngine fun g =>
      { g with handoffs := [⟨0x41, 7, false, 3, [], .host, 0, 4, none⟩] }

/-- Requests are taken and go to HB0. -/
def hosted (s : State) : State := (s.wr (F.SB_PBUF.IEN 0) 1).wr (F.QCFG.BIND 0x200) 1

def readReply : List Nat := [0x21 * 2 ^ 12 + 5, 33 * 2 ^ 12 + 1, 0x111, 0x222]
def readRequest : List Nat := [2 ^ 12 + 5, 6 * 2 ^ 12 + 1, 0x40]

theorem witness_service : (served readReply).power.phase = .ready ∧ ((served readReply).port 0).service = [800] ∧ win15 = spliced.winSet 15 ∧
    (unserved.port 0).service = [800] ∧ unserved.flag (F.SB_PBUF.EN 0) = false ∧ (served readReply).flag (F.SB_PBUF.EN 0) = true ∧
    (let r := fun i => ((served readReply).ram 0 ((served readReply).newestRecord 0 3 + i)).toNat
     bitOf (r 0) 17 = false ∧ hKind (r 1) = 2 ∧ State.plenOf (r 0) = 4 ∧ bitsOf (r 6) 9 0 = (served readReply).origin 0 ∧
       bitsOf (r 6) 17 12 = 0x21 ∧ bitsOf (r 7) 17 12 = 33 ∧ bitsOf (r 7) 5 0 + 1 = 2 ∧ bitOf (r 7) 11 = false ∧ hOrg (r 2) = 9) ∧
    Sparse.find (served readReply).bridge.txns 33 = none ∧
    Sparse.find (expecting (served readReply)).bridge.txns 33 = some (txn (.command 4)) ∧
    (expecting (served readReply)).prefetches 15 = false ∧
    (Sparse.find (expecting (served readReply)).bridge.cmds 4).isSome = true ∧ (served readRequest).flag F.SP_PAIR.EN = false ∧
    (served readRequest).flag (F.SB_PBUF.IEN 0) = false ∧ (hosted (served readRequest)).flag (F.SB_PBUF.IEN 0) = true ∧
    ((List.range 16).find? fun i => (Sparse.find (hosted (served readRequest)).bridge.inbound i).isNone) = some 0 ∧
    State.requestFits 1 1 3 = true ∧ (hosted (served readRequest)).boundQueue 1 = some 0x200 ∧
    5 ≤ (hosted (served readRequest)).room 0x200 := by decide +kernel

def quarantined : State := spliced.modTxns fun _ => [(33, { txn .poll with quarantine := true })]
def polls (s : State) : State := s.wr (F.SB_WPOLL.PINT 15) 1

theorem witness_timers : (expecting spliced).power.phase = .ready ∧
    Sparse.find (expecting spliced).bridge.txns 33 = some (txn (.command 4)) ∧
    Sparse.find (expecting spliced).bridge.cmds 4 = some ⟨0x41, 15, win15, 40, 2, 7, 0, 0, [], [], false, true⟩ ∧
    (expecting spliced).engine.handoffs = [⟨0x41, 7, false, 3, [], .host, 0, 4, none⟩] ∧
    Sparse.find quarantined.bridge.txns 33 = some { txn .poll with quarantine := true } ∧
    (prefetched.window 15).buf = (prefetched.window 15).buf.take 4 ++ (prefetched.window 15).buf.drop 4 ∧
    ((prefetched.window 15).buf.take 4).all (fun x => 2 ≤ x.2) = true ∧
    ((prefetched.window 15).buf.drop 4).all (fun x => x.2 < 2) = true ∧ (prefetched.window 15).buf.take 4 ≠ [] ∧
    (polls spliced).winLive 15 = true ∧ (polls spliced).rd (F.SB_WPOLL.PINT 15) = 1 ∧ ((polls spliced).window 15).polled = false ∧
    (polls spliced).lockedOther 0 9 = false ∧ (polls spliced).freeTxn = some 0 ∧ (polls lockedElse).lockedOther 0 9 = true ∧
    (polls spliced).pollWasOpen 15 = false ∧ (polls fullTable).freeTxn = none ∧
    (polls fullTable).winLive 15 = true ∧ ((polls fullTable).window 15).polled = false ∧
    ((polls spliced).modWindow 15 fun W => { W with pollClosed := some 5 }).pollWasOpen 15 = true ∧
    (polls lockedElse).winPort 15 = 0 ∧ (polls lockedElse).winOrg 15 = 9 := by decide +kernel

/-- A request and a reply wait for port 0; HB3 is bound 0x2 and holds an answer to entry 3. -/
def queuedOut : State :=
  spliced.modPort 0 fun P => { P with outq := [(true, 1500, [1, 2, 3]), (false, 1500, [4])], inq := [(1500, [5, 6])] }
def answered3 (open' : Bool) : State :=
  ((spliced.wr (F.QCFG.BIND 0x203) 2).modQueue 0x203 fun _ => { vis := packet [2 * 2 ^ 12 + 4, 3, 0, 0x111, 0x222] }).modInbound
    fun _ => if open' then [(3, ⟨0, 9, 1, 6, 1, 1500, 3000⟩)] else []

theorem witness_bridgePorts : spliced.flag (F.SB_PBUF.EN 1) = false ∧ queuedOut.flag (F.SB_PBUF.EN 0) = true ∧
    127 ∉ (queuedOut.port 0).pend ∧ 126 ∉ (queuedOut.port 0).pend ∧ (queuedOut.desc 0 127).isTx = true ∧
    (queuedOut.desc 0 126).isTx = true ∧ queuedOut.asleep 0 = false ∧ queuedOut.suspended 0 127 = false ∧
    queuedOut.suspended 0 126 = false ∧ 4 * (queuedOut.desc 0 126).dataptr + 8 = 32768 ∧
    4 * (queuedOut.desc 0 127).dataptr + 9 ≤ 32768 ∧ 0x900 ≤ (queuedOut.desc 0 126).dataptr ∧ 0x900 ≤ (queuedOut.desc 0 127).dataptr ∧
    (locked9.port 0).lock = some (9, 15, some 5000) ∧ (answered3 true).boundQueue 2 = some 0x203 ∧
    Sparse.find (answered3 true).bridge.inbound 3 = some ⟨0, 9, 1, 6, 1, 1500, 3000⟩ ∧
    Sparse.find (answered3 false).bridge.inbound 3 = none := by decide +kernel

/-! ### Witnesses: reset and invariants -/

/-- A device with words in every RAM, and a command that writes block RAM in front. -/
def stored : State :=
  let s := ((((dev.wrRam 3 7 5).wrCap 9 1).wrEmit 8 2).wrKnot 1 2 3).wrScale 4 1 6
  { s.modEngine fun g => { g with patch := [(5, 9)] } with pending := [.blockRamWrite 3 0x1200 0x123456789, .tickBoundary] }

theorem witness_rams : State.reset.ramsOk = true ∧ stored.ramsOk = true ∧ stored.pending.length = 2 ∧
    (match step stored with | .next t => t.ramsOk && decide (t.pending = [.tickBoundary]) | _ => false) = true := by
  decide +kernel

theorem witness_image : (dev.wrCap 9 1).capWord 9 = 1 ∧ State.reset.power.phase ≠ .ready ∧
    (worn .starting).power.phase ≠ .ready ∧ 65535 / 2 < 32768 := by decide +kernel

theorem witness_front : (dev.pending = []) ∧ ({ dev with pending := [.nop (pkt 1 [])] } : State).pending = [.nop (pkt 1 [])] := by
  decide +kernel

/-! ### Worked examples of the spec -/

/-- A digit string as bits, stuff brackets left out. -/
def bitString (s : String) : List Bool := (s.toList.filter fun c => c == '0' || c == '1').map (· == '1')

/-- The worked frame of chapter 3. -/
def frame17 : Native := ⟨0x040, 0, 0x011, true, 1, [0x01234]⟩

/-- Chapter 3, "A frame bit by bit": HCRC and FCRC. -/
theorem test_worked_crcs : hcrc frame17.header = 0x0B ∧ fcrc frame17.header = 0x40531B ∧ frame17.fcrc = 0x44E2E8 := by
  decide +kernel

/-- Chapter 3, Table 3-10: the frame as sent, from SOF through IFS, the ACK slot as the sender drives it. -/
theorem test_worked_frame : frame17.sent = bitString
    ("0 0000[1]100000[1]0 00 00[1]00010001 1 00000[1]1 00001011 " ++
     "000001001[0]000110100[1] 010001001[0]110001011[0]101000 1 11 1111111 111") := by decide +kernel

/-- Chapter 4, the example of Table 4-2: the key of the identifier 0x0C8_1A05 from its header words. -/
theorem test_worked_key : compatKey 0x1903 0x102F0 = 0x658340A ∧ dlcBytes true 9 = 12 ∧ byteWords 12 = 6 := by decide +kernel

/-- Chapter 7, the example of R177: descriptor 10, filter 5 and status pair 10 of P42. -/
theorem test_worked_addresses : statusAddr 42 10 = 0x34F0A ∧ queueBase 0x0BD = 0x1E560 ∧
    ((dev.wrK (descKey 42 10 0) 77).ramView 5 0x428) = 77 ∧ ((dev.wrK (filtKey 42 5 0) 78).ramView 5 0x131E) = 78 := by
  decide +kernel

/-- The scaling of chapter 9's example. -/
def scale125 (w : Nat) : Nat := [0x0A000, 0x3F63C, 0x0050].getD w 0
def scaled (x : Nat) : Option KnotEffect := (KnotWords.mk 0x18125 0x22003 0x2103 0x20000).effect (fun _ _ => x) scale125

/-- Chapter 9, steps 4 to 6 of the example of R251: 12 mA, an overrange input, a bad input. -/
theorem test_worked_scale :
    (scaled 0x02EE0).map (·.writes) = some [(0x2103, 2 ^ 18 - 1, 0x01388)] ∧
    (scaled 0x0FDE8).map (·.writes) = some [(0x2103, 2 ^ 18 - 1, 0x17FFF)] ∧
    (scaled 0x30000).map (·.writes) = some [(0x2103, 2 ^ 18 - 1, 0x3F63C)] := by decide +kernel

/-- Chapter 9, step 2: the UNPACK knot takes channel 3. -/
theorem test_worked_unpack :
    ((KnotWords.mk 0x0BC38 0x0400 0x2003 0x1101).effect (fun h i => if !h && i = 0x403 then 0x02EE0 else 0) (fun _ => 0)).map
      (·.writes) = some [(0x2003, 2 ^ 18 - 1, 0x02EE0)] := by decide +kernel

/-- HOUSE of tick 9,000. -/
def tick9000 : State :=
  ((inPhase 3).wr F.TK_TICKNO.TICKNO 9000).modTick fun u => { u with time := 42020 }
def bufferSet : Packet := ⟨false, false, false, 0x101, .host, [0x150A, 0x1D008, 0, 0x0400, 0x14A00]⟩
def replyOf (o : Outcome) : List Nat := match o with | .next t => (t.queue qReply).vis.map (·.word.toNat) | _ => []
def after (o : Outcome) : State := match o with | .next t => t | _ => dev

/-- Chapter 14, worked example: the replies to BUFFER_SET and to the COMMIT that follows it. -/
theorem test_worked_bufferSet : replyOf (exec (.bufferSet bufferSet) tick9000) = [0x6410, 0x4040] := by decide +kernel
theorem test_worked_commit :
    (replyOf (exec (.commit ⟨false, false, false, 0x102, .host, []⟩) (after (exec (.bufferSet bufferSet) tick9000)))).drop 2 =
      [0x14400, 0x4083, 0x00000, 0x02329, 0x00000] := by decide +kernel

/-- Chapter 10, the example of R282: binding 5 of P42, NDLY 14, the beacon of tick 7,000. -/
def edges : State :=
  let s := putWords (bindKey 5 0) [2 ^ 17 + 2 ^ 14 + 42 * 2 ^ 7 + 3, 0x031 * 2 ^ 8, 0x100, 0, 0, 0, 14] (bufs bus)
  let s := (putWords (descKey 42 3 0) [2 ^ 16, 0, 0, 2 * 2 ^ 13 + 0xA00] s).wr (F.QCFG.BIND 0x200) 3
  let s := s.wrRams 5 (4 * 0xA00) (recordOf false false (9 * 2 ^ 7) (0x031 * 2 ^ 8) 5 1400045000 [0x20, 2 ^ 17, 1, 0x17000, 0x0A122])
  { s.modPort 42 fun P => { P with beacons := [⟨1400000000, 7000, 50000, 7, 3, 64⟩] } with evalQueue := [5] }

theorem test_worked_edges : (match exec (.reportEvaluation 5) edges with
    | .next t => ((t.queue 0x200).coming.flatMap (·.2)).map (·.word.toNat) | _ => []) = [0x1005, 0x0005, 0x0001, 0x17000, 0x2EF30, 0x014DC] := by
  decide +kernel

end Sys2Proof.Tests
end

section
/-! SUPPORT. The release of a hold (R193): how a status pair reads after each of its writes, where a host write of it
lands, and the swap of the copies at the access or at the close of the store in progress. -/

namespace Sys2Proof.Machine

/-! ### Fields of a number -/

/-- The number that `putBits` makes: the bits above the field, the new value, and the bits below. -/
theorem putBits_eq (v lo k x : Nat) : putBits v (lo + k) lo x =
    2 ^ lo * (2 ^ (k + 1) * (v / 2 ^ lo / 2 ^ (k + 1)) + x % 2 ^ (k + 1)) + v % 2 ^ lo := by
  have hv : v = 2 ^ lo * (2 ^ (k + 1) * (v / 2 ^ lo / 2 ^ (k + 1)) + v / 2 ^ lo % 2 ^ (k + 1)) + v % 2 ^ lo := by
    rw [Nat.div_add_mod, Nat.div_add_mod]
  have hw : lo + k - lo + 1 = k + 1 := by omega
  rw [putBits, bitsOf, Nat.shiftRight_eq_div_pow, hw, Nat.mul_comm _ (2 ^ lo), Nat.mul_comm _ (2 ^ lo)]
  rw [Nat.mul_add] at hv ⊢
  omega

/-- A bit after `putBits`: that of the new value inside the field, and as before outside. -/
theorem bitOf_putBits {v hi lo x : Nat} (h : lo ≤ hi) (j : Nat) :
    bitOf (putBits v hi lo x) j = if lo ≤ j ∧ j ≤ hi then bitOf x (j - lo) else bitOf v j := by
  obtain ⟨k, rfl⟩ := Nat.exists_eq_add_of_le h
  have hc : v % 2 ^ lo < 2 ^ lo := Nat.mod_lt _ (Nat.two_pow_pos lo)
  have hx : x % 2 ^ (k + 1) < 2 ^ (k + 1) := Nat.mod_lt _ (Nat.two_pow_pos _)
  rw [putBits_eq, bitOf, Nat.testBit_two_pow_mul_add _ hc, Nat.testBit_two_pow_mul_add _ hx]
  by_cases h1 : j < lo
  · simp [bitOf, h1, Nat.testBit_mod_two_pow, show ¬ lo ≤ j by omega]
  · by_cases h2 : j ≤ lo + k
    · simp [bitOf, h1, h2, Nat.testBit_mod_two_pow, show j - lo < k + 1 by omega, show lo ≤ j by omega]
    · simp [bitOf, h1, h2, show ¬ j - lo < k + 1 by omega, Nat.testBit_div_two_pow,
        show j - lo - (k + 1) + (k + 1) + lo = j by omega]

/-- A word keeps the 18 low bits of a number (R2). -/
theorem bitOf_wordOf {j : Nat} (v : Nat) (h : j < 18) : bitOf (wordOf v).toNat j = bitOf v j := by
  rw [bitOf, wordOf, BitVec.toNat_ofNat, Nat.testBit_mod_two_pow, decide_eq_true h, Bool.true_and, bitOf]

theorem bitOf_b2n (b : Bool) : bitOf (b2n b) 0 = b := by cases b <;> rfl

/-- Every dword of the block RAM windows names a word of block RAM (Table 16-1). -/
theorem targetOf_blockRam {a : Nat} (h1 : 0x20000 ≤ a) (h2 : a < 0x50000) :
    targetOf a = .blockRam ((a - 0x20000) / 0x4000) (a % 0x4000) := by
  unfold targetOf
  simp (disch := omega) only [if_neg, if_pos]

namespace State

/-! ### Block RAM -/

/-- The frame of a write of several words into block RAM. -/
theorem keepsRam_wrRams (s : State) (b i : Nat) (l : List Word) (h : i + l.length ≤ 32768) :
    s.keepsRam (fun b' i' => b' = b ∧ i ≤ i' ∧ i' < i + l.length) (s.wrRams b i l) := by
  have hz : ∀ e ∈ (List.range l.length).zip l, e.1 < l.length := fun e he =>
    List.mem_range.1 (List.of_mem_zip (a := e.1) (b := e.2) he).1
  unfold wrRams
  generalize (List.range l.length).zip l = z at hz
  induction z generalizing s with
  | nil => exact keepsRam_refl s _
  | cons e z ih =>
    have he : e.1 < l.length := hz e List.mem_cons_self
    refine keepsRam_trans (keepsRam_mono (keepsRam_wrRam s b (i + e.1) e.2) ?_)
      (ih _ fun e' h' => hz e' (List.mem_cons_of_mem _ h'))
    rintro b' i' ⟨rfl, rfl⟩
    rw [Nat.mod_eq_of_lt (by omega)]
    exact ⟨rfl, by omega, by omega⟩

/-! ### Status pairs (Table 7-5) -/

theorem s0Word_lt {d : Nat} (n : Nat) (h : d < 128) : s0Word n d + 1 < 0x2400 := by
  simp only [s0Word]; omega

theorem s0_congr {s t : State} (h : t.blockRam = s.blockRam) (n d : Nat) : t.s0 n d = s.s0 n d := by
  simp only [s0, ram, h]

theorem s1_congr {s t : State} (h : t.blockRam = s.blockRam) (n d : Nat) : t.s1 n d = s.s1 n d := by
  simp only [s1, ram, h]

theorem keepsRam_congr {s t u : State} {hit : Nat → Nat → Prop} (h : s.keepsRam hit t) (hu : u.blockRam = t.blockRam) :
    s.keepsRam hit u := fun b i hi hn => by
  rw [← h b i hi hn]; simp only [ram, hu]

@[simp] theorem s0_wrS1 (n d v : Nat) (s : State) : (s.wrS1 n d v).s0 n d = s.s0 n d := by
  simp only [s0, wrS1]
  rw [ram_wrRam_ne _ _ (.inr (by omega))]

@[simp] theorem s1_wrS1 (n d v : Nat) (s : State) : (s.wrS1 n d v).s1 n d = (wordOf v).toNat := by
  simp only [s1, wrS1, ram_wrRam_self]

@[simp] theorem s1_setS0 (n d hi lo x : Nat) (s : State) : (s.setS0 n d hi lo x).s1 n d = s.s1 n d := by
  simp only [s1, setS0, wrS0]
  rw [ram_wrRam_ne _ _ (.inr (by omega))]

/-- A flag or a bit of a counter of S0 after a field of S0 is set. -/
theorem bitOf_s0_setS0 {n d hi lo x j : Nat} (s : State) (h : lo ≤ hi) (hj : j < 18) :
    bitOf ((s.setS0 n d hi lo x).s0 n d) j = if lo ≤ j ∧ j ≤ hi then bitOf x (j - lo) else bitOf (s.s0 n d) j := by
  rw [s0, setS0, wrS0, ram_wrRam_self, bitOf_wordOf _ hj, bitOf_putBits h]

theorem keepsRam_wrS1 {n d : Nat} (v : Nat) (s : State) (hd : d < 128) :
    s.keepsRam (fun b i => b = n / 8 ∧ i = s0Word n d + 1) (s.wrS1 n d v) := by
  have h := keepsRam_wrRam s (n / 8) (s0Word n d + 1) (wordOf v)
  rwa [Nat.mod_eq_of_lt (by have := s0Word_lt n hd; omega)] at h

theorem keepsRam_setS0 {n d : Nat} (hi lo x : Nat) (s : State) (hd : d < 128) :
    s.keepsRam (fun b i => b = n / 8 ∧ i = s0Word n d) (s.setS0 n d hi lo x) := by
  have h := keepsRam_wrRam s (n / 8) (s0Word n d) (wordOf (putBits (s.s0 n d) hi lo x))
  rwa [Nat.mod_eq_of_lt (by have := s0Word_lt n hd; omega)] at h

/-! ### The swap of the copies (R193) -/

/-- The copies of a buffer are swapped: ALT := not ALT and SHNEW := 0. -/
def swapCopies (n d : Nat) (s : State) : State := (s.setS0 n d 16 16 (b2n (!s.alt n d))).setS0 n d 15 15 0

theorem alt_swapCopies (n d : Nat) (s : State) : (s.swapCopies n d).alt n d = !s.alt n d := by
  simp only [swapCopies, alt, bitOf_s0_setS0 _ (Nat.le_refl _) (show 16 < 18 by decide)]
  simp [bitOf_b2n]

theorem shnew_swapCopies (n d : Nat) (s : State) : (s.swapCopies n d).shnew n d = false := by
  simp only [swapCopies, shnew, bitOf_s0_setS0 _ (Nat.le_refl _) (show 15 < 18 by decide)]
  simp [bitOf]

@[simp] theorem s1_swapCopies (n d : Nat) (s : State) : (s.swapCopies n d).s1 n d = s.s1 n d := by
  simp only [swapCopies, s1_setS0]

theorem keepsRam_swapCopies {n d : Nat} (s : State) (hd : d < 128) :
    s.keepsRam (fun b i => b = n / 8 ∧ i = s0Word n d) (s.swapCopies n d) :=
  keepsRam_trans (keepsRam_setS0 _ _ _ s hd) (keepsRam_setS0 _ _ _ _ hd)

/-! ### The host write of a status pair -/

@[simp] theorem blockRam_hostRelease (n d : Nat) (s : State) : (s.hostRelease n d).blockRam = s.blockRam :=
  congrArg Prod.fst (rams_hostRelease n d s)

@[simp] theorem regs_hostRelease (n d : Nat) (s : State) : (s.hostRelease n d).regs = s.regs := by
  unfold hostRelease release
  split <;> exact onlyIf_same (g := regs) _ s rfl

@[simp] theorem blockRam_streamOut (a : Nat) (w : Dword) (s : State) : (s.streamOut a w).blockRam = s.blockRam :=
  congrArg Prod.fst (rams_forward s _)

@[simp] theorem regs_streamOut (a : Nat) (w : Dword) (s : State) : (s.streamOut a w).regs = s.regs := by
  rw [streamOut, forward_eq]

/-- What the release of a hold does to the status pair of a receive buffer: HOLD ends, and the copies are swapped
where the non-current one is newer and no store writes it. -/
def endHold (n d : Nat) (s : State) : State :=
  if s.shnew n d && !s.xbusy n d then (s.wrS1 n d 0).swapCopies n d else s.wrS1 n d 0

/-- A host write of S1 that releases a hold, with RELEASE or without. -/
theorem hostS1_endHold {n d : Nat} (rel : Bool) {s : State} (hrx : (s.desc n d).isRx = true)
    (hheld : s.held n d = true) : s.hostS1 n d false rel = onlyIf rel (·.hostRelease n d) (s.endHold n d) := by
  have halt : (s.wrS1 n d 0).alt n d = s.alt n d := by simp only [alt, s0_wrS1]
  simp [hostS1, endHold, swapCopies, hrx, hheld, halt]

theorem statusAddr_blockRam {n d : Nat} (hn : n < 96) (hd : d < 128) :
    targetOf (statusAddr n d) = .blockRam (n / 8) (0xE00 + n % 8 * 0x80 + d) := by
  have hb : (statusAddr n d - 0x20000) / 0x4000 = n / 8 := by simp only [statusAddr]; omega
  have hi : statusAddr n d % 0x4000 = 0xE00 + n % 8 * 0x80 + d := by simp only [statusAddr]; omega
  rw [targetOf_blockRam (by simp only [statusAddr]; omega) (by simp only [statusAddr]; omega), hb, hi]

/-- A host write of a status pair sets S1 of its buffer, on an active device, in a block that is on, while no rewrite
of the buffer is to come. -/
theorem writeReady_status {n d : Nat} {s : State} (w : Dword) (hn : n < 96) (hd : d < 128)
    (hs : s.isStandby = false) (hb : s.blockOn (n / 8) = true) (hr : s.rewriting n d = false) :
    s.writeReady (statusAddr n d) w false = s.hostS1 n d (w.hi.getLsbD 17) (w.hi.getLsbD 16) := by
  have h1 : 8 * (n / 8) + (2 * (0xE00 + n % 8 * 0x80 + d) - 0x1C00) / 0x100 = n := by omega
  have h2 : 2 * (0xE00 + n % 8 * 0x80 + d) % 0x100 / 2 = d := by omega
  have h3 : 2 * (0xE00 + n % 8 * 0x80 + d) < 0x2400 := by omega
  have h4 : ¬ 0xE00 + n % 8 * 0x80 + d < 0xE00 := by omega
  simp [writeReady, statusAddr_blockRam hn hd, pageBlock, hs, hb, h4, writeRam, h1, h2, h3, hr]

/-- The release of a hold through the host port ends the hold in block RAM and changes no register. -/
theorem landWrite_endHold {n d : Nat} {s : State} (w : Dword) (hn : n < 96) (hd : d < 128) (hs : s.isStandby = false)
    (hb : s.blockOn (n / 8) = true) (hr : s.rewriting n d = false) (hrx : (s.desc n d).isRx = true)
    (hheld : s.held n d = true) (hw : w.hi.getLsbD 17 = false) :
    (s.landWrite (statusAddr n d) w).blockRam = (s.endHold n d).blockRam ∧
      (s.landWrite (statusAddr n d) w).regs = (s.endHold n d).regs := by
  simp only [landWrite, writeReady_status w hn hd hs hb hr, hw, hostS1_endHold _ hrx hheld]
  constructor
  · exact (onlyIf_same (g := blockRam) _ _ (by simp)).trans (onlyIf_same (g := blockRam) _ _ (by simp))
  · exact (onlyIf_same (g := regs) _ _ (by simp)).trans (onlyIf_same (g := regs) _ _ (by simp))

/-- Both commands that release a hold are a host write of the status pair with HOLD 0. -/
theorem exec_releaseHold {n : PortId} {d : BufId} {row : Instr} {h : State} (hon : h.hostOn = true)
    (hrow : row = .statusPairHold n d false ∨ row = .s1Release n d false) :
    ∃ w : Dword, w.hi.getLsbD 17 = false ∧
      exec row h = .next ((h.hostSlot (statusAddr n d)).landWrite (statusAddr n d) w) := by
  rcases hrow with rfl | rfl
  · exact ⟨BitVec.ofNat 36 (pack [(b2n false, 35)]), by decide, by
      simp only [exec, execStatusPairHold, hostWrite, onHost, hon, if_true]⟩
  · exact ⟨BitVec.ofNat 36 (pack [(b2n false, 35), (1, 34)]), by decide, by
      simp only [exec, execS1Release, hostWrite, onHost, hon, if_true]⟩

/-! ### The close of a shadow store (R191, R193) -/

/-- A store in the shadow of a buffer, written and counted, with SHBUSY cleared. -/
def shadowWritten (c n : Nat) (o : OpenStore) (s : State) : State :=
  ((((s.wrRams (n / 8) o.base o.record).grant c).modCell c fun C => { C with store := none }).addCount n o.buf).setS0
    n o.buf 12 12 0

/-- Where the hold has been released, the close of a shadow store swaps the copies. -/
theorem blockRam_closeStore_released (c n : Nat) {o : OpenStore} (s : State) (hst : o.stale = false)
    (hsh : o.shadow = true) (hh : (s.shadowWritten c n o).held n o.buf = false) :
    (s.closeStore c n o).blockRam = ((s.shadowWritten c n o).swapCopies n o.buf).blockRam := by
  simp only [shadowWritten] at hh
  simp only [closeStore, hst, hsh, hh, if_true, if_false, Bool.false_eq_true, shadowWritten, swapCopies]
  exact (onlyIf_same (g := blockRam) _ _ (congrArg Prod.fst (rams_bufferEvent _ _ _ _ _ _))).trans
    (onlyIf_same (g := blockRam) _ _ (modPort_blockRam _ _ _))

section
variable {c n : Nat} {o : OpenStore} (s : State) (hd : o.buf < 128) (hlo : 0x2400 ≤ o.base)
  (hhi : o.base + o.record.length ≤ 32768)
include hd hlo hhi

/-- A record lies above the status pairs of its block. -/
theorem ram_wrRams_status {i : Nat} (hi : i ≤ s0Word n o.buf + 1) :
    (s.wrRams (n / 8) o.base o.record).ram (n / 8) i = s.ram (n / 8) i := by
  have hw := s0Word_lt n hd
  exact keepsRam_wrRams s (n / 8) o.base o.record hhi _ i (by omega) fun h => by omega

theorem s1_shadowWritten : (s.shadowWritten c n o).s1 n o.buf = s.s1 n o.buf := by
  simp only [shadowWritten, addCount, s1_setS0]
  exact congrArg BitVec.toNat (ram_wrRams_status s hd hlo hhi (Nat.le_refl _))

theorem alt_shadowWritten : (s.shadowWritten c n o).alt n o.buf = s.alt n o.buf := by
  simp only [shadowWritten, addCount, alt, bitOf_s0_setS0 _ (show 0 ≤ 5 by decide) (show 16 < 18 by decide),
    bitOf_s0_setS0 _ (show 12 ≤ 12 by decide) (show 16 < 18 by decide)]
  exact congrArg (fun w : Word => bitOf w.toNat 16) (ram_wrRams_status s hd hlo hhi (Nat.le_succ _))

end

/-- After its store, a buffer is marked for the units that wait for it; no RAM changes. -/
theorem blockRam_endStore {c n : Nat} {r : State} {o : OpenStore} (ho : (r.cell c).store = some o)
    (hst : o.stale = false) : (r.endStore c n).blockRam =
      (((r.portATurn c).advanceClk (r.rewriteEnd n o.buf)).closeStore c n o).blockRam := by
  simp only [endStore, ho, hst, Bool.false_eq_true, if_false]
  exact (onlyIf_same (g := blockRam) _ _ (modPort_blockRam _ _ _)).trans (congrArg Prod.fst (rams_profileStored _ _ _))

/-- The close of a shadow store of a buffer whose hold has been released makes its copy the current one. -/
theorem endStore_released {c n : Nat} {r : State} {o : OpenStore} (ho : (r.cell c).store = some o)
    (hst : o.stale = false) (hsh : o.shadow = true) (hd : o.buf < 128) (hlo : 0x2400 ≤ o.base)
    (hhi : o.base + o.record.length ≤ 32768) (hh : (r.portATurn c).held n o.buf = false) :
    (r.endStore c n).shnew n o.buf = false ∧ (r.endStore c n).alt n o.buf = !(r.portATurn c).alt n o.buf := by
  generalize hu : (r.portATurn c).advanceClk (r.rewriteEnd n o.buf) = u
  have hram : u.blockRam = (r.portATurn c).blockRam := by rw [← hu]; rfl
  have hheld : (u.shadowWritten c n o).held n o.buf = false := by
    rw [held, s1_shadowWritten u hd hlo hhi, s1_congr hram]; exact hh
  have hend : (r.endStore c n).blockRam = ((u.shadowWritten c n o).swapCopies n o.buf).blockRam := by
    rw [blockRam_endStore ho hst, hu, blockRam_closeStore_released c n u hst hsh hheld]
  constructor
  · rw [shnew, s0_congr hend]; exact shnew_swapCopies _ _ _
  · calc (r.endStore c n).alt n o.buf = ((u.shadowWritten c n o).swapCopies n o.buf).alt n o.buf := by
          rw [alt, s0_congr hend, alt]
      _ = !u.alt n o.buf := by rw [alt_swapCopies, alt_shadowWritten u hd hlo hhi]
      _ = !(r.portATurn c).alt n o.buf := by rw [alt, s0_congr hram, alt]

/-! ### What the release leaves of the status pair -/

section
variable {n d : Nat} (s : State)

/-- HOLD has ended, whether the copies are swapped or not. -/
theorem held_endHold : (s.endHold n d).held n d = false := by
  simp only [endHold]
  split <;> simp [held, bitOf, wordOf]

/-- The release of a hold writes the two words of the status pair alone. -/
theorem keepsRam_endHold (hd : d < 128) :
    s.keepsRam (fun b i => b = n / 8 ∧ (i = s0Word n d ∨ i = s0Word n d + 1)) (s.endHold n d) := by
  have h1 := keepsRam_mono (hit' := fun b i => b = n / 8 ∧ (i = s0Word n d ∨ i = s0Word n d + 1))
    (keepsRam_wrS1 0 s hd) fun _ _ h => ⟨h.1, .inr h.2⟩
  unfold endHold
  split
  · exact keepsRam_trans h1 (keepsRam_mono (keepsRam_swapCopies _ hd) fun _ _ h => ⟨h.1, .inl h.2⟩)
  · exact h1

/-- A newer copy that no store writes becomes the current one. -/
theorem endHold_of_newer (hn : s.shnew n d = true) (hb : s.xbusy n d = false) :
    s.endHold n d = (s.wrS1 n d 0).swapCopies n d := by simp [endHold, hn, hb]

theorem endHold_of_busy (hb : s.xbusy n d = true) : s.endHold n d = s.wrS1 n d 0 := by simp [endHold, hb]

theorem endHold_of_none (hn : s.shnew n d = false) : s.endHold n d = s.wrS1 n d 0 := by simp [endHold, hn]

end

end State

open State

/-- Settles O43: the swap within the access is `endHold`, that at the close `endStore_released`. -/
theorem holdRelease : Obligations.HoldRelease := by
  unfold Obligations.HoldRelease
  constructor
  · intro n d row h hon s hs hb hr hrx hheld hrow
    obtain ⟨w, hw, hexec⟩ := exec_releaseHold hon hrow
    obtain ⟨hram, hregs⟩ := landWrite_endHold w n.isLt d.isLt hs hb hr hrx hheld hw
    refine ⟨_, hexec, ?_, keepsRam_congr (keepsRam_endHold s d.isLt) hram, fun hnew hbusy => ?_, fun hbusy => ?_,
      fun hnew hbusy => ⟨?_, ?_⟩⟩
    · rw [held, s1_congr hram]; exact held_endHold s
    · rw [endHold_of_newer s hnew hbusy] at hram
      constructor
      · rw [alt, s0_congr hram]
        exact (alt_swapCopies _ _ _).trans (by simp only [alt, s0_wrS1])
      · rw [shnew, s0_congr hram]; exact shnew_swapCopies _ _ _
    · rw [s0_congr hram, endHold_of_busy s hbusy, s0_wrS1]
    · rw [endHold_of_none s hnew] at hram
      exact keepsRam_congr (keepsRam_wrS1 0 s d.isLt) hram
    · rw [hregs, endHold_of_none s hnew]; exact regs_wrote _ _
  · intro c n r o hready hport ho hst hsh hd hlo hhi hh
    refine ⟨r.endStore c n, ?_, endStore_released ho hst hsh hd hlo hhi hh⟩
    simp [exec, execReceiveStore, ready_eq _ hready, hport]

end Sys2Proof.Machine
end

section
/-! SUPPORT. A read of the emit window in the clk in which a knot writes the word returns the knot's value (R35, R240):
the write has not been entered into the emit half of the state, and the read makes it first (`State.emitNow`). -/

namespace Sys2Proof.Machine

/-- A device in MAP. Lane 3 is to issue knot 100 in clk 600: a COPY from captured word 7 to emit word 8. -/
def copyMap : State :=
  let s : State := { State.reset with
    power := { phase := .ready }
    gateway := { lanes := [(3, { cur := some (2, 100, 1), clk := 600 })] } }
  ((((s.wr F.TK_STATUS.PHASE 1).wrCap 7 0x1234).wrKnot 100 0 (4 * 2 ^ 15)).wrKnot 100 1 7).wrKnot 100 2 8

/-- The same device once the knot has issued and five clk have passed: the knot writes in this clk (R256). -/
def copyLanding : State := idle^[5] (copyMap.issueKnot 3 false)

/-- Clk 605: the write that the knot issued in clk 600 is in flight, and the emit half still holds the reset value. -/
theorem copyLanding_state : copyLanding.clk = 605 ∧
    copyLanding.gateway.inflight = [⟨3, 600, [(8, 2 ^ 18 - 1, 0x1234)], 8, 0x1234⟩] ∧
    copyLanding.emitWord 8 = 0x30000 ∧ copyLanding.emitWord 9 = 0x30000 := by decide +kernel

/-- The emit window gives the value that the knot copies. -/
theorem targetView_copyLanding : copyLanding.targetView (.emit 4) = 0x1234 + 2 ^ 18 * 0x30000 := by decide +kernel

/-- Refutes O58: the dword of the emit window is not always that of the words that the emit half holds. In the clk in
which a knot writes emit word 8, dword 4 of the window gives the knot's value, as R240 says, and the word still holds
0x3_0000. -/
theorem not_signalImage : ¬ Obligations.SignalImage := by
  unfold Obligations.SignalImage
  rintro ⟨-, hview, -⟩
  obtain ⟨-, -, hlow, hhigh⟩ := copyLanding_state
  have hread := (hview copyLanding 4).2
  rw [targetView_copyLanding, hlow, hhigh] at hread
  exact absurd hread (by decide)

end Sys2Proof.Machine
end
